-- ==== Sys2Proof/Config.lean ====
section
/-!
DEFINITION. Config: the constants the block is built around (00_scope.md rule R4), each under the
rule's own name. None is programmable, and the spec leaves no value of the block open, so there is
no free value here.
-/

namespace Sys2Proof.Config

/-- `START_MARKER` (R4): the value of frame byte 0, and the byte the framer resynchronises on. -/
def startMarker : BitVec 8 := 0x3A#8

/-- `FRAME_LEN` (R4): bytes in a frame and in the receive buffer. -/
def frameLen : Nat := 5

/-- `WRITE_BIT` (R4): the direction bit, bit 0 of the flags byte. -/
def writeBit : BitVec 8 := 0x01#8

/-- `IDX_BITS` (R4; 92_eei_decisions.md D1): the width of the function index. -/
def idxBits : Nat := 7

/-- `IDX_LSB` (R4; D1): the function index is flags bits 7 down to 1. -/
def idxLsb : Nat := 1

/-- `IDX_MASK` (R4; D1): the mask applied to the index value after the shift. -/
def idxMask : BitVec 8 := 0x7F#8

/-- `PAYLOAD_BITS` (R4): the width of the payload. -/
def payloadBits : Nat := 16

/-- The two ways a 16-bit payload could lie in frame bytes 2 and 3. -/
inductive PayloadOrder where
  /-- byte 2 is bits 15:8, byte 3 is bits 7:0 -/
  | bigEndian
  /-- byte 2 is bits 7:0, byte 3 is bits 15:8 (90_conflicts.md C2: not this block) -/
  | littleEndian
deriving DecidableEq, Repr

/-- `PAYLOAD_ORDER` (R4, R31; 90_conflicts.md C2): big-endian. -/
def payloadOrder : PayloadOrder := .bigEndian

/-- `CRC_INIT` (R4): the initial value of the running checksum. -/
def crcInit : BitVec 8 := 0xFF#8

/-- `CRC_POLY` (R4) as the 9-bit constant of the shift form, x^8 + x^5 + x^4 + 1. -/
def crcPoly9 : BitVec 9 := 0x131#9

/-- `CRC_POLY` (R4) as an 8-bit constant, for the truncated form of rule R81. -/
def crcPoly8 : BitVec 8 := 0x31#8

/-- `CRC_FIRST` (R4): the first frame byte the checksum covers. -/
def crcFirst : Nat := 1

/-- `CRC_LAST` (R4): the last frame byte the checksum covers, inclusive. -/
def crcLast : Nat := 3

/-- `CRC_ROUNDS` (R4): shift rounds per byte. -/
def crcRounds : Nat := 8

/-- The two readings of the decoder's direction guard (R4 `DIR_CHECK`). -/
inductive DirCheck where
  /-- a frame with bit 0 of the flags byte clear is invalid (R113 (b), R118) -/
  | intended
  /-- the original code's `(!flagsByte) & 1`, 1 only for flags byte 0x00
  (93_implementation_defined.md U5: recorded there, not this block) -/
  | asBuilt
deriving DecidableEq, Repr

/-- `DIR_CHECK` (R4; D12): the intended behaviour. -/
def dirCheck : DirCheck := .intended

end Sys2Proof.Config
end

