-- ==== Sys2Proof/Word.lean ====
section
/-!
DEFINITION. Word: the block's word types and the five-byte frame (00_scope.md R5, R9;
30_encoding.md R50, R51). All values are unsigned.
-/

namespace Sys2Proof

/-- A byte, bits 7 to 0 (R5). -/
abbrev Byte := BitVec 8

/-- A function index, `IDX_BITS` wide (R4, R55). -/
abbrev FuncIndex := BitVec 7

/-- A payload, `PAYLOAD_BITS` wide (R4, R54). -/
abbrev Payload := BitVec 16

/-- The three error flags `frm_err[2:0]` = `{E_CRC, E_DIR, E_START}` (R16, R112). -/
abbrev ErrFlags := BitVec 3

/-- A frame as one 40-bit word: byte 0 in bits 39:32, byte 4 in bits 7:0 (R51). -/
abbrev FrameWord := BitVec 40

/-- Five bytes in arrival order, frame bytes 0 to 4 (R9), named by the field each byte is when the
frame is aligned (R10, R51). The receive buffer `buf[0..4]` is one of these, and so is every
candidate frame. -/
structure Frame where
  /-- byte 0, `START`: the start marker -/
  start : Byte
  /-- byte 1, `FLAGS`: function index in bits 7:1, direction bit in bit 0 -/
  flags : Byte
  /-- byte 2, `PH`: payload bits 15:8 -/
  ph : Byte
  /-- byte 3, `PL`: payload bits 7:0 -/
  pl : Byte
  /-- byte 4, `CSUM`: the checksum -/
  csum : Byte
deriving DecidableEq, Repr

/-- Five bytes of 0x00: the cleared buffer (R23, R95). -/
def Frame.zero : Frame := ⟨0#8, 0#8, 0#8, 0#8, 0#8⟩

end Sys2Proof
end

