-- ==== Sys2Proof/Syntax.lean ====
section
/-!
DEFINITION. Syntax: every row of spec/opcode_table.json as a constructor of `Instr`
(30_encoding.md R57, R58, R59, R60, R66), and the words they are encoded in (`Stimulus`).
-/

namespace Sys2Proof

/-- The direction a frame travels (R59): out of the block, or into it. -/
inductive Direction where
  /-- the block sends the frame -/
  | sent
  /-- the block receives the frame -/
  | received
deriving DecidableEq, Repr

/-- The operands of `ENCODE` (R110): `enc_idx[6:0]`, `enc_write`, `enc_payload[15:0]`. -/
structure EncodeOperands where
  idx : FuncIndex
  w : Bool
  p : Payload
deriving DecidableEq, Repr

/-- One constructor per row of the opcode table. -/
inductive Instr where
  /-- `RESET` (R180): `sel` = 1xx. -/
  | reset
  /-- `IDLE` (R53): `sel` = 000. -/
  | idle
  /-- `RXBYTE` (R90): `sel` = 0x1. The row leaves `enc_valid` open: `enc` is `none` for `sel` = 001,
  and holds the operands of the `ENCODE` of the same step for `sel` = 011 (R41, R53). -/
  | rxbyte (b : Byte) (enc : Option EncodeOperands)
  /-- `ENCODE` (R110) with no `RXBYTE` in the step: `sel` = 010. -/
  | encode (idx : FuncIndex) (w : Bool) (p : Payload)
  /-- `DECODE` (R112): the pure function applied to five bytes. -/
  | decode (f : Frame)
  /-- `CRC8` (R80): the pure function applied to three bytes. -/
  | crc8 (b1 b2 b3 : Byte)
  /-- `FRAME.RD` (R59): a frame with `W` = 0, travelling in direction `dir`. -/
  | frameRd (dir : Direction) (idx : FuncIndex) (p : Payload) (ck : Byte)
  /-- `FRAME.WR` (R59): a frame with `W` = 1, travelling in direction `dir`. -/
  | frameWr (dir : Direction) (idx : FuncIndex) (p : Payload) (ck : Byte)
  /-- `REQUEST` (R66): `ENC idx, 0, 0`. -/
  | request (idx : FuncIndex)
  /-- `SET` (R66): `ENC idx, 1, p`. -/
  | set (idx : FuncIndex) (p : Payload)
  /-- `REQ.FWVER` (R58): firmware-version probe, transmit. -/
  | reqFwver
  /-- `REQ.RAIN` (R58): rainfall accumulation status poll, transmit. -/
  | reqRain
  /-- `REQ.SENSOR` (R58): sensor status request, transmit. -/
  | reqSensor
  /-- `REQ.OPTICS` (R58): optics/calibration status request, transmit. -/
  | reqOptics
  /-- `SET.CALIB` (R58): write 0 to index 3, transmit. -/
  | setCalib
  /-- `SET.CADENCE` (R58): write 0 to index 5, transmit. -/
  | setCadence
  /-- `RSP.FWVER` (R58): response of index 0, receive. -/
  | rspFwver (p : Payload) (ck : Byte)
  /-- `RSP.RAIN` (R58): response of index 1, receive. -/
  | rspRain (p : Payload) (ck : Byte)
  /-- `RSP.SENSOR` (R58): response of index 2, receive. -/
  | rspSensor (p : Payload) (ck : Byte)
  /-- `RSP.OPTICS` (R58): response of index 3, receive. -/
  | rspOptics (p : Payload) (ck : Byte)
  /-- `RSP.RATE` (R58): response of index 4, receive. -/
  | rspRate (p : Payload) (ck : Byte)
  /-- `RSP.RSVD5` (R58, R62): response of the reserved index 5, receive. -/
  | rspRsvd5 (p : Payload) (ck : Byte)
  /-- `RSP.RSVD6` (R58, R62): response of the reserved index 6, receive. -/
  | rspRsvd6 (p : Payload) (ck : Byte)
  /-- `RSP.RSVD7` (R58, R62): response of the reserved index 7, receive. -/
  | rspRsvd7 (p : Payload) (ck : Byte)
  /-- `RSP.UNKNOWN` (R58, R62): response of an index 8 to 127, receive. -/
  | rspUnknown (idx : FuncIndex) (p : Payload) (ck : Byte)
deriving DecidableEq, Repr

/-- The input ports of the block, sampled in one step (R53). -/
structure PortInputs where
  rst : Bool
  rxValid : Bool
  rxData : Byte
  encValid : Bool
  encIdx : FuncIndex
  encWrite : Bool
  encPayload : Payload
deriving DecidableEq, Repr

/-- Every input 0: no enable asserted (R53, `sel` = 000). -/
def PortInputs.quiet : PortInputs := ⟨false, false, 0#8, false, 0#7, false, 0#16⟩

/-- One encoded instruction as it is presented to the block. The opcode table has five formats (its
`format` column) whose words overlap, so a word comes with the reading it is to be given.
DESIGN CHOICE (log 8): the tag is the model's; the bits under it are the spec's. -/
inductive Stimulus where
  /-- format `SEL3`: the input ports themselves (R53) -/
  | ports (p : PortInputs)
  /-- format `FUNC`, 24 bits, `b1` first: a call of `CRC8` (R57) -/
  | callCrc8 (w : BitVec 24)
  /-- format `FUNC`, 40 bits, byte 0 first: a call of `DECODE` (R57) -/
  | callDecode (w : FrameWord)
  /-- format `pseudo`: the frame a `REQUEST` or `SET` builds (R66) -/
  | pseudo (w : FrameWord)
  /-- format `F5`, read by frame class (R59) -/
  | frame (dir : Direction) (w : FrameWord)
  /-- format `F5`, read by the function index map of its direction (R58) -/
  | named (dir : Direction) (w : FrameWord)
deriving DecidableEq, Repr

end Sys2Proof
end

