-- ==== Sys2Proof/Machine/Operands.lean ====
section
/-!
DEFINITION. Operands: every operand form of the block. Bytes of a frame by number (R7, R9), the
flags byte (R52, R55), the payload (R54), and a frame as a 40-bit word (R51).
-/

namespace Sys2Proof

/-- `f[i]`: byte `i` of five bytes (R7, R9). -/
def Frame.get (f : Frame) (i : Fin 5) : Byte :=
  match i with
  | 0 => f.start
  | 1 => f.flags
  | 2 => f.ph
  | 3 => f.pl
  | 4 => f.csum

/-- `f[i] <- v`: five bytes with byte `i` replaced (R7). -/
def Frame.put (f : Frame) (i : Fin 5) (v : Byte) : Frame :=
  match i with
  | 0 => { f with start := v }
  | 1 => { f with flags := v }
  | 2 => { f with ph := v }
  | 3 => { f with pl := v }
  | 4 => { f with csum := v }

/-- The five bytes in arrival order (R9). -/
def Frame.bytes (f : Frame) : List Byte := [f.start, f.flags, f.ph, f.pl, f.csum]

/-- The flags byte of an index and a direction bit: `trunc_8((idx << 1) | w)` (R55, R110). -/
def flagsByte (idx : FuncIndex) (w : Bool) : Byte :=
  (idx.setWidth 8 <<< Config.idxLsb) ||| (if w then Config.writeBit else 0#8)

/-- `idx = (f[1] >> 1) & 0x7F`: the function index of a flags byte (R55, R114). -/
def flagsIdx (flags : Byte) : FuncIndex :=
  ((flags >>> Config.idxLsb) &&& Config.idxMask).setWidth 7

/-- The direction bit of a flags byte (R52). -/
def flagsDir (flags : Byte) : Bool := (flags &&& Config.writeBit) != 0#8

/-- The two payload bytes, frame bytes 2 and 3 in this order, of a payload (R31, R54). -/
def payloadSplit (p : Payload) : Byte × Byte :=
  match Config.payloadOrder with
  | .bigEndian => (p.extractLsb' 8 8, p.extractLsb' 0 8)
  | .littleEndian => (p.extractLsb' 0 8, p.extractLsb' 8 8)

/-- The payload of frame bytes 2 and 3: `{f[2], f[3]}` (R31, R54, R115). -/
def payloadJoin (b2 b3 : Byte) : Payload :=
  match Config.payloadOrder with
  | .bigEndian => b2 ++ b3
  | .littleEndian => b3 ++ b2

/-- The frame with the start marker, the given index, direction bit and payload, and checksum
byte `ck` (R51). -/
def Frame.make (idx : FuncIndex) (w : Bool) (p : Payload) (ck : Byte) : Frame :=
  { start := Config.startMarker
    flags := flagsByte idx w
    ph := (payloadSplit p).1
    pl := (payloadSplit p).2
    csum := ck }

/-- The function index of a frame (R51, R114). -/
def Frame.idx (f : Frame) : FuncIndex := flagsIdx f.flags

/-- The direction bit of a frame (R51). -/
def Frame.dir (f : Frame) : Bool := flagsDir f.flags

/-- The payload of a frame (R51, R115). -/
def Frame.payload (f : Frame) : Payload := payloadJoin f.ph f.pl

/-- A frame as one word, byte 0 in bits 39:32, byte 4 in bits 7:0 (R16, R51). -/
def Frame.toWord (f : Frame) : FrameWord := f.start ++ f.flags ++ f.ph ++ f.pl ++ f.csum

/-- The five bytes of a 40-bit word (R51). -/
def Frame.ofWord (w : FrameWord) : Frame :=
  { start := w.extractLsb' 32 8
    flags := w.extractLsb' 24 8
    ph := w.extractLsb' 16 8
    pl := w.extractLsb' 8 8
    csum := w.extractLsb' 0 8 }

end Sys2Proof
end

