-- ==== Sys2Proof/Machine/Crc.lean ====
section
/-!
DEFINITION. Crc: the CRC-8 generator (40_crc8.md R80 to R86).
-/

namespace Sys2Proof

/-- One shift round on the 8-bit running value (R80): test bit 7, shift left, exclusive-or with
0x0131 in a register one bit wider, truncate to 8 bits. -/
def crcRound (crc : Byte) : Byte :=
  if crc.msb then (((crc.setWidth 9) <<< 1) ^^^ Config.crcPoly9).setWidth 8
  else crc <<< 1

/-- `n` shift rounds. -/
def crcShift (n : Nat) (crc : Byte) : Byte :=
  match n with
  | 0 => crc
  | n + 1 => crcShift n (crcRound crc)

/-- One byte into the running value (R80): exclusive-or, then `CRC_ROUNDS` rounds. -/
def crcStep (crc b : Byte) : Byte := crcShift Config.crcRounds (crc ^^^ b)

/-- The loop of R80 over any byte list, from `CRC_INIT`, first byte first. -/
def crcOver (bs : List Byte) : Byte := bs.foldl crcStep Config.crcInit

/-- `CRC8(b1, b2, b3)` (R80). -/
def crc8 (b1 b2 b3 : Byte) : Byte := crcOver [b1, b2, b3]

/-- The bytes of a frame the checksum covers, `CRC_FIRST` to `CRC_LAST` inclusive (R83). -/
def Frame.covered (f : Frame) : List Byte :=
  (f.bytes.take (Config.crcLast + 1)).drop Config.crcFirst

/-- The checksum computed from a frame's bytes 1 to 3 (R56, R83). -/
def Frame.checksum (f : Frame) : Byte := crcOver f.covered

/-- The frame `ENCODE` builds (R110): the checksum byte is computed from bytes 1 to 3. -/
def encodeFrame (idx : FuncIndex) (w : Bool) (p : Payload) : Frame :=
  { Frame.make idx w p 0#8 with csum := (Frame.make idx w p 0#8).checksum }

end Sys2Proof
end

