-- ==== Sys2Proof/WellFormed.lean ====
section
/-!
DEFINITION. WellFormed: which terms of `Instr` are encodings the opcode table has. Operand ranges
are kept by the operand types (30_encoding.md R64), so what is left are the two checks below.
-/

namespace Sys2Proof

/-- A frame the block sends carries the checksum the block computes (R56, R110); a frame it receives
may carry any checksum byte (R113 (c)). -/
def frameCsumOk (dir : Direction) (idx : FuncIndex) (w : Bool) (p : Payload) (ck : Byte) : Bool :=
  match dir with
  | .sent => ck == (encodeFrame idx w p).csum
  | .received => true

/-- `RSP.UNKNOWN` stands for the indices 8 to 127 (R58). -/
def idxUnknown (idx : FuncIndex) : Bool := decide (8 ≤ idx.toNat)

/-- The well-formedness check. -/
def Instr.wellFormed (i : Instr) : Bool :=
  match i with
  | .reset => true
  | .idle => true
  | .rxbyte _ _ => true
  | .encode _ _ _ => true
  | .decode _ => true
  | .crc8 _ _ _ => true
  | .frameRd dir idx p ck => frameCsumOk dir idx false p ck
  | .frameWr dir idx p ck => frameCsumOk dir idx true p ck
  | .request _ => true
  | .set _ _ => true
  | .reqFwver => true
  | .reqRain => true
  | .reqSensor => true
  | .reqOptics => true
  | .setCalib => true
  | .setCadence => true
  | .rspFwver _ _ => true
  | .rspRain _ _ => true
  | .rspSensor _ _ => true
  | .rspOptics _ _ => true
  | .rspRate _ _ => true
  | .rspRsvd5 _ _ => true
  | .rspRsvd6 _ _ => true
  | .rspRsvd7 _ _ => true
  | .rspUnknown idx _ _ => idxUnknown idx

end Sys2Proof
end

