-- ==== Sys2Proof/Decode.lean ====
section
/-!
DEFINITION. Decode: the decoder, total on every stimulus and rejecting by name, then the encoder,
both from 30_encoding.md (R51, R53, R57, R58, R59, R66), and the reading of a bare word of
spec/opcode_table.json.
-/

namespace Sys2Proof

/-- Why a stimulus is no row of the opcode table. No port pattern and no operand of `DECODE` or
`CRC8` is ever rejected (R64, R112, R80). -/
inductive DecodeError where
  /-- byte 0 of a frame is not 0x3A, so it is of no frame class (R59) -/
  | notStartMarker
  /-- byte 4 of a frame to be sent is not the checksum the block would send (R56, R110) -/
  | checksumMismatch
  /-- a request carries a payload; `REQUEST` is `ENC idx, 0, 0` (R66) -/
  | requestWithPayload
  /-- none of the six frames the function index map names for transmission (R58) -/
  | notNamedFrame
  /-- a response has `W` = 1 (R58, R59) -/
  | notResponse
deriving DecidableEq, Repr

/-- `sel[2:0] = {rst, enc_valid, rx_valid}` (R53). -/
def PortInputs.sel (p : PortInputs) : BitVec 3 :=
  BitVec.ofBool p.rst ++ BitVec.ofBool p.encValid ++ BitVec.ofBool p.rxValid

/-- The port-level select (R53): `RESET` overrides; `RXBYTE` and `ENCODE` may coincide; inputs whose
enable is 0 are ignored (93_implementation_defined.md U10). -/
def decodePorts (p : PortInputs) : Instr :=
  match p.rst, p.encValid, p.rxValid with
  | true, _, _ => .reset
  | false, false, false => .idle
  | false, false, true => .rxbyte p.rxData none
  | false, true, false => .encode p.encIdx p.encWrite p.encPayload
  | false, true, true => .rxbyte p.rxData (some ⟨p.encIdx, p.encWrite, p.encPayload⟩)

/-- A frame read as a pseudo-operation (R66): `REQUEST` and `SET` build a whole frame, so the start
marker and the checksum are fixed, and a request's payload is 0. -/
def decodePseudo (f : Frame) : Except DecodeError Instr :=
  if f.start ≠ Config.startMarker then .error .notStartMarker
  else if f.csum ≠ f.checksum then .error .checksumMismatch
  else if f.dir then .ok (.set f.idx f.payload)
  else if f.payload ≠ 0#16 then .error .requestWithPayload
  else .ok (.request f.idx)

/-- A frame read by its class (R59). The block sends only frames with the right checksum (R110). -/
def decodeClass (dir : Direction) (f : Frame) : Except DecodeError Instr :=
  if f.start ≠ Config.startMarker then .error .notStartMarker
  else if dir = .sent ∧ f.csum ≠ f.checksum then .error .checksumMismatch
  else if f.dir then .ok (.frameWr dir f.idx f.payload f.csum)
  else .ok (.frameRd dir f.idx f.payload f.csum)

/-- The six frames of the transmit direction (R58), as the opcode table writes them. -/
def sentRows : List (FrameWord × Instr) :=
  [ (0x3A0000004B#40, .reqFwver),
    (0x3A020000C7#40, .reqRain),
    (0x3A04000062#40, .reqSensor),
    (0x3A060000EE#40, .reqOptics),
    (0x3A070000A8#40, .setCalib),
    (0x3A0B0000D3#40, .setCadence) ]

/-- The transmit half of the function index map (R58). -/
def decodeNamedSent (w : FrameWord) : Except DecodeError Instr :=
  match sentRows.lookup w with
  | some i => .ok i
  | none => .error .notNamedFrame

/-- The receive half of the function index map (R58): the row of a response's index. -/
def responseRow (idx : FuncIndex) (p : Payload) (ck : Byte) : Instr :=
  if idx = 0#7 then .rspFwver p ck
  else if idx = 1#7 then .rspRain p ck
  else if idx = 2#7 then .rspSensor p ck
  else if idx = 3#7 then .rspOptics p ck
  else if idx = 4#7 then .rspRate p ck
  else if idx = 5#7 then .rspRsvd5 p ck
  else if idx = 6#7 then .rspRsvd6 p ck
  else if idx = 7#7 then .rspRsvd7 p ck
  else .rspUnknown idx p ck

/-- A received frame read by the function index map (R58, R59): a response has `W` = 1. -/
def decodeNamedReceived (f : Frame) : Except DecodeError Instr :=
  if f.start ≠ Config.startMarker then .error .notStartMarker
  else if f.dir then .ok (responseRow f.idx f.payload f.csum)
  else .error .notResponse

/-- The decoder. -/
def decode (x : Stimulus) : Except DecodeError Instr :=
  match x with
  | .ports p => .ok (decodePorts p)
  | .callCrc8 w => .ok (.crc8 (w.extractLsb' 16 8) (w.extractLsb' 8 8) (w.extractLsb' 0 8))
  | .callDecode w => .ok (.decode (Frame.ofWord w))
  | .pseudo w => decodePseudo (Frame.ofWord w)
  | .frame dir w => decodeClass dir (Frame.ofWord w)
  | .named .sent w => decodeNamedSent w
  | .named .received w => decodeNamedReceived (Frame.ofWord w)

/-- A response word (R58): start marker, index and `W` = 1, payload, checksum. -/
def responseWord (idx : FuncIndex) (p : Payload) (ck : Byte) : Stimulus :=
  .named .received (Frame.make idx true p ck).toWord

/-- The encoder: the words of an instruction. Inputs that no enable asks for are driven 0. -/
def encode (i : Instr) : Stimulus :=
  match i with
  | .reset => .ports { PortInputs.quiet with rst := true }
  | .idle => .ports PortInputs.quiet
  | .rxbyte b none => .ports { PortInputs.quiet with rxValid := true, rxData := b }
  | .rxbyte b (some e) =>
      .ports { rst := false, rxValid := true, rxData := b, encValid := true, encIdx := e.idx,
               encWrite := e.w, encPayload := e.p }
  | .encode idx w p =>
      .ports { PortInputs.quiet with encValid := true, encIdx := idx, encWrite := w, encPayload := p }
  | .decode f => .callDecode f.toWord
  | .crc8 b1 b2 b3 => .callCrc8 (b1 ++ b2 ++ b3)
  | .frameRd dir idx p ck => .frame dir (Frame.make idx false p ck).toWord
  | .frameWr dir idx p ck => .frame dir (Frame.make idx true p ck).toWord
  | .request idx => .pseudo (encodeFrame idx false 0#16).toWord
  | .set idx p => .pseudo (encodeFrame idx true p).toWord
  | .reqFwver => .named .sent 0x3A0000004B#40
  | .reqRain => .named .sent 0x3A020000C7#40
  | .reqSensor => .named .sent 0x3A04000062#40
  | .reqOptics => .named .sent 0x3A060000EE#40
  | .setCalib => .named .sent 0x3A070000A8#40
  | .setCadence => .named .sent 0x3A0B0000D3#40
  | .rspFwver p ck => responseWord 0#7 p ck
  | .rspRain p ck => responseWord 1#7 p ck
  | .rspSensor p ck => responseWord 2#7 p ck
  | .rspOptics p ck => responseWord 3#7 p ck
  | .rspRate p ck => responseWord 4#7 p ck
  | .rspRsvd5 p ck => responseWord 5#7 p ck
  | .rspRsvd6 p ck => responseWord 6#7 p ck
  | .rspRsvd7 p ck => responseWord 7#7 p ck
  | .rspUnknown idx p ck => responseWord idx p ck

/-- A 40-bit table word with no reading given. The rows overlap, so the most specific row is taken
(log 8): a word that begins with no marker is an operand of `DECODE`; one of the six named frames
is that frame, sent; `W` = 1 is a response; `W` = 0 is a `REQUEST` where its payload is 0 and its
checksum right, and otherwise a received frame of class `FRAME.RD`. -/
def stimulusOfFrameWord (w : FrameWord) : Stimulus :=
  let f := Frame.ofWord w
  if f.start ≠ Config.startMarker then .callDecode w
  else if (sentRows.lookup w).isSome then .named .sent w
  else if f.dir then .named .received w
  else if f.payload = 0#16 ∧ f.csum = f.checksum then .pseudo w
  else .frame .received w

/-- The stimulus of an opcode-table word: the table's 3-bit rows in one byte (`sel` in bits 2:0; the
bits above them are no port and are ignored, log 19), its 24-bit row, its 40-bit rows. A length the
table does not have gives a word that no row has. -/
def stimulusOfTableWord (nbits w : Nat) : Stimulus :=
  if nbits ≤ 8 then
    .ports { PortInputs.quiet with
      rst := w.testBit 2, encValid := w.testBit 1, rxValid := w.testBit 0 }
  else if nbits = 24 then .callCrc8 (BitVec.ofNat 24 w)
  else if nbits = 40 then stimulusOfFrameWord (BitVec.ofNat 40 w)
  else .pseudo 0#40

/-- The instruction the decoder reads from an opcode-table word. -/
def decodeTableWord (nbits w : Nat) : Option Instr :=
  match decode (stimulusOfTableWord nbits w) with
  | .ok i => some i
  | .error _ => none

end Sys2Proof
end

