-- ==== Sys2Proof/Machine/State.lean ====
section
/-!
DEFINITION. State: the block's state (10_state.md R10 to R24), the reasons a step can stop, and the
state after reset.
-/

namespace Sys2Proof.Machine

open Sys2Proof

/-- What `DECODE` returns (R112). -/
structure Decoded where
  valid : Bool
  err : ErrFlags
  idx : FuncIndex
  payload : Payload
deriving DecidableEq, Repr

/-- The output record of one step (R16). -/
structure Outputs where
  /-- `frm_done`: a candidate frame was completed and delivered in this step -/
  frmDone : Bool
  /-- `frm_valid`: the delivered candidate frame is valid -/
  frmValid : Bool
  /-- `frm_err[2:0]` = `{E_CRC, E_DIR, E_START}` of the delivered candidate frame -/
  frmErr : ErrFlags
  /-- `frm_idx[6:0]`: the function index of a valid frame, else 0 -/
  frmIdx : FuncIndex
  /-- `frm_payload[15:0]`: the payload of a valid frame, else 0 -/
  frmPayload : Payload
  /-- `tx_valid`: this is an `ENCODE` step -/
  txValid : Bool
  /-- `tx_frame[39:0]`: the encoded frame, byte 0 in bits 39:32, else 0 -/
  txFrame : FrameWord
deriving DecidableEq, Repr

/-- Every output 0 (R17). -/
def Outputs.zero : Outputs := ⟨false, false, 0#3, 0#7, 0#16, false, 0#40⟩

/-- What a call of one of the two pure functions returned in the step (R57; D20). They have no port,
so what they return is in no field of the output record. -/
inductive Returned where
  /-- the step was no call -/
  | nothing
  /-- the result of `CRC8` -/
  | crc8 (c : Byte)
  /-- the results of `DECODE` -/
  | decode (d : Decoded)
deriving DecidableEq, Repr

/-- The state. `buf` and `cnt` are all the state of the block (R24). The other three fields are the
MODEL's own: `pending` is what the outside has presented and no step has taken (log 1), `out` the
output record of the step that led here (log 2), `ret` what that step returned (log 3). -/
structure State where
  /-- `buf[0..4]`, the receive buffer (R10) -/
  buf : Frame
  /-- `cnt`, the number of bytes accumulated, below 5 between steps (R13) -/
  cnt : Fin 5
  pending : List Stimulus
  out : Outputs
  ret : Returned
deriving DecidableEq, Repr

/-- The faults of the machine. There are none: "No behaviour of the block is `fault` or `stuck`"
(93_implementation_defined.md; R164, R195), so the type has no constructor and a step that faults
cannot be written. Nobody raises one. Safe: the spec has no fault either. -/
inductive Fault where
deriving DecidableEq, Repr

/-- The refusals of the machine. -/
inductive Refusal where
  /-- Raised by an arm of `exec` whose instruction has no meaning yet; no arm of this model is one.
  Safe: the run stops. -/
  | notModelled (mnemonic : String)
  /-- Raised by `step` on a pending stimulus that is no row of the opcode table, with the decoder's
  reason. Safe: the run stops, and the spec gives such a word no meaning. The input ports never
  raise it (R64). -/
  | badStimulus (e : DecodeError)
deriving DecidableEq, Repr

/-- The machine right after `RESET` (R23, R24, R180): `cnt` and the buffer 0, every output 0. -/
def State.reset : State :=
  { buf := Frame.zero, cnt := 0, pending := [], out := Outputs.zero, ret := .nothing }

end Sys2Proof.Machine
end

