-- ==== Sys2Proof/Machine/Ops.lean ====
section
/-!
DEFINITION. Ops: the operations the meanings share. Register access (R7), raising a cause (R160),
the framer's step for one byte (41_framer.md R91 to R95), and ending a step with its output record
(R16, R17).
-/

namespace Sys2Proof.Machine

open Sys2Proof

/-- `buf[i]` (R7). -/
def State.readBuf (s : State) (i : Fin 5) : Byte := s.buf.get i

/-- `buf[i] <- v` (R7). -/
def State.writeBuf (s : State) (i : Fin 5) (v : Byte) : State := { s with buf := s.buf.put i v }

/-- `cnt <- v` (R7). -/
def State.writeCnt (s : State) (v : Fin 5) : State := { s with cnt := v }

/-- The cleared state of the framer: all five buffer registers 0x00 and `cnt` 0 (R95, R180). -/
def State.clearFramer (s : State) : State := { s with buf := Frame.zero, cnt := 0 }

/-- The three causes for finding a candidate frame invalid (R161). -/
inductive Cause where
  /-- byte 0 is not 0x3A -/
  | eStart
  /-- bit 0 of byte 1 is 0 -/
  | eDir
  /-- byte 4 is not the checksum of bytes 1 to 3 -/
  | eCrc
deriving DecidableEq, Repr

/-- The bit of `frm_err` that reports a cause (R161; D7). -/
def causeMask (c : Cause) : ErrFlags :=
  match c with
  | .eStart => 0b001#3
  | .eDir => 0b010#3
  | .eCrc => 0b100#3

/-- `raise <Cause>` (R160), the block's one form of taking an exception: set the cause's bit in the
error flags of the current step, where the cause holds. Nothing is saved, no control is
transferred, no other bit changes (R168, R169), and there is no return (R171). -/
def raiseCause (c : Cause) (holds : Bool) (err : ErrFlags) : ErrFlags :=
  if holds then err ||| causeMask c else err

/-- Where a received byte is stored: `cnt`, zeroed first when the byte is the start marker (R91). -/
def storeIndex (b : Byte) (cnt : Fin 5) : Fin 5 := if b = Config.startMarker then 0 else cnt

/-- One received byte through the framer (R90 to R95): the state after it, and the candidate frame if
it completed one. The byte is stored at the current position and counted (R92); at the fifth byte
the buffer is read whole and then cleared (R94, R95). -/
def State.acceptByte (s : State) (b : Byte) : State × Option Frame :=
  let i := storeIndex b s.cnt
  let stored := s.writeBuf i b
  if i.val + 1 = Config.frameLen then (stored.clearFramer, some stored.buf)
  else (stored.writeCnt (i + 1), none)

/-- The bytes of a frame through the framer, one after the other: `RX` with five bytes abbreviates
one `RX` per byte (R65). The candidate frame is the one the fifth byte completed, if it did. -/
def State.acceptFrame (s : State) (f : Frame) : State × Option Frame :=
  let s1 := (s.acceptByte f.start).1
  let s2 := (s1.acceptByte f.flags).1
  let s3 := (s2.acceptByte f.ph).1
  let s4 := (s3.acceptByte f.pl).1
  s4.acceptByte f.csum

/-- End a step with its output record and with nothing returned. The record replaces the one before
whole: outputs are not held (R16, R186). -/
def State.withOutputs (s : State) (o : Outputs) : State := { s with out := o, ret := .nothing }

/-- End a step that called a pure function: every output is 0 (R17), and the result is returned. -/
def State.withReturned (s : State) (r : Returned) : State :=
  { s with out := Outputs.zero, ret := r }

end Sys2Proof.Machine
end

