-- ==== Sys2Proof/Machine/Flags.lean ====
section
/-!
DEFINITION. Flags: the three checks of `DECODE` and the output fields that depend on them
(42_codec.md R112 to R117; 60_exceptions.md R161, R168; 10_state.md R16, R17).
-/

namespace Sys2Proof.Machine

open Sys2Proof

/-- Check (a) of R113: byte 0 differs from the start marker. -/
def startWrong (f : Frame) : Bool := f.start != Config.startMarker

/-- Check (b) of R113, with the intended polarity of the guard: the direction bit is 0 (R118; D12). -/
def dirWrong (f : Frame) : Bool :=
  match Config.dirCheck with
  | .intended => !f.dir
  | .asBuilt => f.flags == 0#8

/-- Check (c) of R113: byte 4 differs from the checksum of bytes 1 to 3. -/
def crcWrong (f : Frame) : Bool := f.checksum != f.csum

/-- `err`: all three checks are made and each sets its own bit (R113, R168). -/
def frameErr (f : Frame) : ErrFlags :=
  raiseCause .eCrc (crcWrong f) (raiseCause .eDir (dirWrong f) (raiseCause .eStart (startWrong f) 0#3))

/-- `valid`: no check fails (R112, R113). -/
def frameValid (f : Frame) : Bool := !(startWrong f || dirWrong f || crcWrong f)

/-- `DECODE(f)` (R112): the index and the payload of an invalid frame are 0 (R116; D8). -/
def decodeFrame (f : Frame) : Decoded :=
  { valid := frameValid f
    err := frameErr f
    idx := if frameValid f then f.idx else 0#7
    payload := if frameValid f then f.payload else 0#16 }

/-- The `frm_*` outputs of an `RXBYTE` step, by the candidate frame it delivered (R16, R17, R94). -/
def Outputs.withDelivered (o : Outputs) (delivered : Option Frame) : Outputs :=
  match delivered with
  | none => o
  | some f =>
      let d := decodeFrame f
      { o with frmDone := true, frmValid := d.valid, frmErr := d.err, frmIdx := d.idx,
               frmPayload := d.payload }

/-- The `tx_*` outputs of an `ENCODE` step (R16, R110). -/
def Outputs.withEncoded (o : Outputs) (encoded : Option EncodeOperands) : Outputs :=
  match encoded with
  | none => o
  | some e => { o with txValid := true, txFrame := (encodeFrame e.idx e.w e.p).toWord }

/-- An `ENCODE` step: no state is read or written (R110). -/
def State.transmit (s : State) (e : EncodeOperands) : State :=
  s.withOutputs (Outputs.zero.withEncoded (some e))

/-- The five `RXBYTE` steps of a received frame (R65), with the output record of the fifth. From any
state the first four outputs of a frame that begins with the marker are all 0
(`Laws.acceptFrame_silent`), so nothing is lost. -/
def State.receive (s : State) (f : Frame) : State :=
  let r := s.acceptFrame f
  r.1.withOutputs (Outputs.zero.withDelivered r.2)

end Sys2Proof.Machine
end

