-- ==== Sys2Proof/Machine/Codec.lean ====
section
/-!
DEFINITION. Codec: the meanings of the two pure functions `DECODE` and `CRC8` called on their own
(30_encoding.md R57; 92_eei_decisions.md D20) and of the pseudo-operations `REQUEST` and `SET`
(R66).
-/

namespace Sys2Proof.Machine

open Sys2Proof

/-- `DECODE(f)` (R112): no state read or written, no output; the result is returned. -/
def execDecode (f : Frame) (s : State) : Host.Outcome State Fault Refusal :=
  .next (s.withReturned (.decode (decodeFrame f)))

/-- `CRC8(b1, b2, b3)` (R80): no state read or written, no output; the result is returned. -/
def execCrc8 (b1 b2 b3 : Byte) (s : State) : Host.Outcome State Fault Refusal :=
  .next (s.withReturned (.crc8 (Sys2Proof.crc8 b1 b2 b3)))

/-- `REQUEST idx` = `ENC idx, 0, 0` (R66). -/
def execRequest (idx : FuncIndex) (s : State) : Host.Outcome State Fault Refusal :=
  .next (s.transmit ⟨idx, false, 0#16⟩)

/-- `SET idx, p` = `ENC idx, 1, p` (R66). -/
def execSet (idx : FuncIndex) (p : Payload) (s : State) : Host.Outcome State Fault Refusal :=
  .next (s.transmit ⟨idx, true, p⟩)

end Sys2Proof.Machine
end

