-- ==== Sys2Proof/Machine/Frames.lean ====
section
/-!
DEFINITION. Frames: the meanings of the frame rows of the opcode table (30_encoding.md R58, R59). A
frame that is sent is the `ENCODE` event that builds it (log 6); a frame that is received is one
`RXBYTE` per byte (R65; log 5). What an index means is the host's (R62): the block sends and
delivers every index alike.
-/

namespace Sys2Proof.Machine

open Sys2Proof

/-- `FRAME.RD` (R59): sent, a read request; received, never valid (`E_DIR`). -/
def execFrameRd (dir : Direction) (idx : FuncIndex) (p : Payload) (ck : Byte) (s : State) :
    Host.Outcome State Fault Refusal :=
  match dir with
  | .sent => .next (s.transmit ⟨idx, false, p⟩)
  | .received => .next (s.receive (Frame.make idx false p ck))

/-- `FRAME.WR` (R59): sent, a write command; received, a response, valid when the checksum matches. -/
def execFrameWr (dir : Direction) (idx : FuncIndex) (p : Payload) (ck : Byte) (s : State) :
    Host.Outcome State Fault Refusal :=
  match dir with
  | .sent => .next (s.transmit ⟨idx, true, p⟩)
  | .received => .next (s.receive (Frame.make idx true p ck))

/-- `REQ.FWVER` (R58): `REQUEST 0`, the firmware-version probe. -/
def execReqFwver (s : State) : Host.Outcome State Fault Refusal :=
  .next (s.transmit ⟨0#7, false, 0#16⟩)

/-- `REQ.RAIN` (R58): `REQUEST 1`, the rainfall accumulation status poll. -/
def execReqRain (s : State) : Host.Outcome State Fault Refusal :=
  .next (s.transmit ⟨1#7, false, 0#16⟩)

/-- `REQ.SENSOR` (R58): `REQUEST 2`, sensor status. -/
def execReqSensor (s : State) : Host.Outcome State Fault Refusal :=
  .next (s.transmit ⟨2#7, false, 0#16⟩)

/-- `REQ.OPTICS` (R58): `REQUEST 3`, optics/calibration status. -/
def execReqOptics (s : State) : Host.Outcome State Fault Refusal :=
  .next (s.transmit ⟨3#7, false, 0#16⟩)

/-- `SET.CALIB` (R58): `SET 3, 0`, start calibration. -/
def execSetCalib (s : State) : Host.Outcome State Fault Refusal :=
  .next (s.transmit ⟨3#7, true, 0#16⟩)

/-- `SET.CADENCE` (R58): `SET 5, 0`, set rainfall reporting cadence. -/
def execSetCadence (s : State) : Host.Outcome State Fault Refusal :=
  .next (s.transmit ⟨5#7, true, 0#16⟩)

/-- `RSP.FWVER` (R58): a firmware version response. -/
def execRspFwver (p : Payload) (ck : Byte) (s : State) : Host.Outcome State Fault Refusal :=
  .next (s.receive (Frame.make 0#7 true p ck))

/-- `RSP.RAIN` (R58): a rainfall accumulation status response. -/
def execRspRain (p : Payload) (ck : Byte) (s : State) : Host.Outcome State Fault Refusal :=
  .next (s.receive (Frame.make 1#7 true p ck))

/-- `RSP.SENSOR` (R58): a sensor status response. -/
def execRspSensor (p : Payload) (ck : Byte) (s : State) : Host.Outcome State Fault Refusal :=
  .next (s.receive (Frame.make 2#7 true p ck))

/-- `RSP.OPTICS` (R58): an optics status response. -/
def execRspOptics (p : Payload) (ck : Byte) (s : State) : Host.Outcome State Fault Refusal :=
  .next (s.receive (Frame.make 3#7 true p ck))

/-- `RSP.RATE` (R58): a realtime rain rate response. -/
def execRspRate (p : Payload) (ck : Byte) (s : State) : Host.Outcome State Fault Refusal :=
  .next (s.receive (Frame.make 4#7 true p ck))

/-- `RSP.RSVD5` (R58, R62): a response of the reserved index 5. -/
def execRspRsvd5 (p : Payload) (ck : Byte) (s : State) : Host.Outcome State Fault Refusal :=
  .next (s.receive (Frame.make 5#7 true p ck))

/-- `RSP.RSVD6` (R58, R62): a response of the reserved index 6. -/
def execRspRsvd6 (p : Payload) (ck : Byte) (s : State) : Host.Outcome State Fault Refusal :=
  .next (s.receive (Frame.make 6#7 true p ck))

/-- `RSP.RSVD7` (R58, R62): a response of the reserved index 7. -/
def execRspRsvd7 (p : Payload) (ck : Byte) (s : State) : Host.Outcome State Fault Refusal :=
  .next (s.receive (Frame.make 7#7 true p ck))

/-- `RSP.UNKNOWN` (R58, R62): a response of an index 8 to 127. -/
def execRspUnknown (idx : FuncIndex) (p : Payload) (ck : Byte) (s : State) :
    Host.Outcome State Fault Refusal :=
  .next (s.receive (Frame.make idx true p ck))

end Sys2Proof.Machine
end

