-- ==== Sys2Proof/Machine/Port.lean ====
section
/-!
DEFINITION. Port: the meanings of the port-level operations `RESET`, `IDLE`, `RXBYTE` and `ENCODE`
(30_encoding.md R53), each called directly by one arm of `exec`.
-/

namespace Sys2Proof.Machine

open Sys2Proof

/-- `RESET` (R180): all state cleared, every output 0. What the outside has still to present is no
state of the block and stays (log 20). -/
def execReset (s : State) : Host.Outcome State Fault Refusal :=
  .next (s.clearFramer.withOutputs Outputs.zero)

/-- `IDLE` (R53): state unchanged, every output 0. -/
def execIdle (s : State) : Host.Outcome State Fault Refusal :=
  .next (s.withOutputs Outputs.zero)

/-- `RXBYTE(b)` (R90), with the `ENCODE` of the same step if there is one (R41, R53): the two do not
interact, and each produces its own outputs. -/
def execRxbyte (b : Byte) (enc : Option EncodeOperands) (s : State) :
    Host.Outcome State Fault Refusal :=
  let r := s.acceptByte b
  .next (r.1.withOutputs ((Outputs.zero.withDelivered r.2).withEncoded enc))

/-- `ENCODE(idx, w, p)` (R110). -/
def execEncode (idx : FuncIndex) (w : Bool) (p : Payload) (s : State) :
    Host.Outcome State Fault Refusal :=
  .next (s.transmit ⟨idx, w, p⟩)

end Sys2Proof.Machine
end

