-- ==== Sys2Proof/Machine/Dispatch.lean ====
section
/-! DEFINITION. Dispatch: one arm per constructor of Instr, each one direct call of its meaning. -/

namespace Sys2Proof.Machine

def exec (i : Instr) (s : State) : Host.Outcome State Fault Refusal :=
  match i with
  | .reset => Sys2Proof.Machine.execReset s
  | .idle => Sys2Proof.Machine.execIdle s
  | .rxbyte b enc => Sys2Proof.Machine.execRxbyte b enc s
  | .encode idx w p => Sys2Proof.Machine.execEncode idx w p s
  | .decode f => Sys2Proof.Machine.execDecode f s
  | .crc8 b1 b2 b3 => Sys2Proof.Machine.execCrc8 b1 b2 b3 s
  | .frameRd dir idx p ck => Sys2Proof.Machine.execFrameRd dir idx p ck s
  | .frameWr dir idx p ck => Sys2Proof.Machine.execFrameWr dir idx p ck s
  | .request idx => Sys2Proof.Machine.execRequest idx s
  | .set idx p => Sys2Proof.Machine.execSet idx p s
  | .reqFwver => Sys2Proof.Machine.execReqFwver s
  | .reqRain => Sys2Proof.Machine.execReqRain s
  | .reqSensor => Sys2Proof.Machine.execReqSensor s
  | .reqOptics => Sys2Proof.Machine.execReqOptics s
  | .setCalib => Sys2Proof.Machine.execSetCalib s
  | .setCadence => Sys2Proof.Machine.execSetCadence s
  | .rspFwver p ck => Sys2Proof.Machine.execRspFwver p ck s
  | .rspRain p ck => Sys2Proof.Machine.execRspRain p ck s
  | .rspSensor p ck => Sys2Proof.Machine.execRspSensor p ck s
  | .rspOptics p ck => Sys2Proof.Machine.execRspOptics p ck s
  | .rspRate p ck => Sys2Proof.Machine.execRspRate p ck s
  | .rspRsvd5 p ck => Sys2Proof.Machine.execRspRsvd5 p ck s
  | .rspRsvd6 p ck => Sys2Proof.Machine.execRspRsvd6 p ck s
  | .rspRsvd7 p ck => Sys2Proof.Machine.execRspRsvd7 p ck s
  | .rspUnknown idx p ck => Sys2Proof.Machine.execRspUnknown idx p ck s

end Sys2Proof.Machine
end

