-- ==== Sys2Proof/Machine/Step.lean ====
section
/-!
DEFINITION. Step: one step takes the first pending stimulus, decodes it and executes it. With
nothing pending no enable is asserted, and the step is the idle step (30_encoding.md R53; log 4).
-/

namespace Sys2Proof.Machine

open Sys2Proof

/-- One step of the machine (00_scope.md R8). -/
def step (s : State) : Host.Outcome State Fault Refusal :=
  match s.pending with
  | [] => exec .idle s
  | x :: rest =>
      match decode x with
      | .ok i => exec i { s with pending := rest }
      | .error e => .refused (.badStimulus e)

/-- `s` with an opcode-table word presented before everything else that is pending (log 15). -/
def State.withFetchWord (s : State) (nbits w : Nat) : State :=
  { s with pending := stimulusOfTableWord nbits w :: s.pending }

end Sys2Proof.Machine
end

