-- ==== Sys2Proof/Safety.lean ====
section
/-!
DEFINITION. Safety: the terms claims are stated in. The framer's two logical states (10_state.md
R15), the cleared state (R23), the state invariant (R22), coherence of the output record (R16,
R17), and a byte stream fed to the framer (41_framer.md R101, R102).
-/

namespace Sys2Proof

/-- No byte after byte 0 is the start marker. -/
abbrev Frame.TailFree (f : Frame) : Prop :=
  f.flags ≠ 0x3A#8 ∧ f.ph ≠ 0x3A#8 ∧ f.pl ≠ 0x3A#8 ∧ f.csum ≠ 0x3A#8

end Sys2Proof

namespace Sys2Proof.Machine

open Sys2Proof

/-- Seeking-start: `cnt == 0` (R15; D5). -/
abbrev State.Seeking (s : State) : Prop := s.cnt = 0

/-- Accumulating: `cnt` in 1..4 (R15; D5). -/
abbrev State.Accumulating (s : State) : Prop := 1 ≤ s.cnt.val

/-- `synced` (R15): the bytes accumulated so far began with a start marker. -/
abbrev State.Synced (s : State) : Prop := 1 ≤ s.cnt.val ∧ s.buf.start = 0x3A#8

/-- The cleared state of the framer (R23, R95). -/
abbrev State.Cleared (s : State) : Prop := s.cnt = 0 ∧ s.buf = ⟨0#8, 0#8, 0#8, 0#8, 0#8⟩

/-- What every output record satisfies (R16, R17, R101, R161): the value fields are 0 unless their
strobe is 1, a frame is valid exactly when it was delivered with no error flag, a valid frame's
payload has no byte 0x3A, and a frame on `tx_frame` begins with the marker and carries its
checksum. -/
structure Outputs.Coherent (o : Outputs) : Prop where
  silent : o.frmDone = false → o.frmValid = false ∧ o.frmErr = 0#3
  valid_iff : o.frmDone = true → (o.frmValid = true ↔ o.frmErr = 0#3)
  invalid_zero : o.frmValid = false → o.frmIdx = 0#7 ∧ o.frmPayload = 0#16
  payload_free : o.frmValid = true →
    o.frmPayload.extractLsb' 8 8 ≠ 0x3A#8 ∧ o.frmPayload.extractLsb' 0 8 ≠ 0x3A#8
  tx_zero : o.txValid = false → o.txFrame = 0#40
  tx_frame : o.txValid = true →
    (Frame.ofWord o.txFrame).start = 0x3A#8 ∧
      (Frame.ofWord o.txFrame).csum = (Frame.ofWord o.txFrame).checksum

/-- The invariant of the machine (R22): 0x3A is only ever stored at position 0, the output record is
coherent, and after a step that delivered a candidate frame the framer is cleared. -/
structure State.Inv (s : State) : Prop where
  tailFree : s.buf.TailFree
  coherent : s.out.Coherent
  cleared : s.out.frmDone = true → s.Cleared

/-- A byte stream fed to the framer, one byte a step: the state after the last byte, and the
candidate frames it delivered, in order. That each is shown on the outputs of the step of its last
byte is the obligation `PendingBytesRunAsTheStream`. -/
def State.feed (s : State) (bs : List Byte) : State × List Frame :=
  match bs with
  | [] => (s, [])
  | b :: rest =>
      let r := s.acceptByte b
      let t := r.1.feed rest
      (t.1, r.2.toList ++ t.2)

/-- The stimulus of an `RXBYTE` event on the ports, with `ENCODE` not enabled (R53). -/
def rxStimulus (b : Byte) : Stimulus :=
  .ports ⟨false, true, b, false, 0#7, false, 0#16⟩

end Sys2Proof.Machine
end

