-- ==== Sys2Proof/Certificates/Slice0/Obligations.lean ====
section
/-!
DEFINITION. Obligations: the statements for the provers, with the words they are written in. The
helpers of `Sys2Proof.Claims` are written from the spec's rules, not from the model's definitions of
the same things.

In every statement `t.out` is the output record of the step that led to `t` (log 2), and `t.ret` what
that step returned (log 3).
-/

namespace Sys2Proof.Claims

open Sys2Proof Sys2Proof.Machine

/-! ### The checksum, on natural numbers -/

/-- A round of R80 on an unbounded register: no truncation at all (R81). -/
def natRound (c : Nat) : Nat := if c.testBit 7 then (c <<< 1) ^^^ 0x131 else c <<< 1

/-- `n` rounds. -/
def natRounds (n c : Nat) : Nat :=
  match n with
  | 0 => c
  | n + 1 => natRounds n (natRound c)

/-- The loop of R80. -/
def natCrc8 (b1 b2 b3 : Nat) : Nat :=
  [b1, b2, b3].foldl (fun crc b => natRounds 8 (crc ^^^ b)) 0xFF

/-- The first half of the table `T` of R86, rows 00 to 70. -/
def tableLow : List (BitVec 8) :=
  [0x00, 0x31, 0x62, 0x53, 0xC4, 0xF5, 0xA6, 0x97, 0xB9, 0x88, 0xDB, 0xEA, 0x7D, 0x4C, 0x1F, 0x2E] ++
  [0x43, 0x72, 0x21, 0x10, 0x87, 0xB6, 0xE5, 0xD4, 0xFA, 0xCB, 0x98, 0xA9, 0x3E, 0x0F, 0x5C, 0x6D] ++
  [0x86, 0xB7, 0xE4, 0xD5, 0x42, 0x73, 0x20, 0x11, 0x3F, 0x0E, 0x5D, 0x6C, 0xFB, 0xCA, 0x99, 0xA8] ++
  [0xC5, 0xF4, 0xA7, 0x96, 0x01, 0x30, 0x63, 0x52, 0x7C, 0x4D, 0x1E, 0x2F, 0xB8, 0x89, 0xDA, 0xEB] ++
  [0x3D, 0x0C, 0x5F, 0x6E, 0xF9, 0xC8, 0x9B, 0xAA, 0x84, 0xB5, 0xE6, 0xD7, 0x40, 0x71, 0x22, 0x13] ++
  [0x7E, 0x4F, 0x1C, 0x2D, 0xBA, 0x8B, 0xD8, 0xE9, 0xC7, 0xF6, 0xA5, 0x94, 0x03, 0x32, 0x61, 0x50] ++
  [0xBB, 0x8A, 0xD9, 0xE8, 0x7F, 0x4E, 0x1D, 0x2C, 0x02, 0x33, 0x60, 0x51, 0xC6, 0xF7, 0xA4, 0x95] ++
  [0xF8, 0xC9, 0x9A, 0xAB, 0x3C, 0x0D, 0x5E, 0x6F, 0x41, 0x70, 0x23, 0x12, 0x85, 0xB4, 0xE7, 0xD6]

/-- The second half of the table `T` of R86, rows 80 to F0. -/
def tableHigh : List (BitVec 8) :=
  [0x7A, 0x4B, 0x18, 0x29, 0xBE, 0x8F, 0xDC, 0xED, 0xC3, 0xF2, 0xA1, 0x90, 0x07, 0x36, 0x65, 0x54] ++
  [0x39, 0x08, 0x5B, 0x6A, 0xFD, 0xCC, 0x9F, 0xAE, 0x80, 0xB1, 0xE2, 0xD3, 0x44, 0x75, 0x26, 0x17] ++
  [0xFC, 0xCD, 0x9E, 0xAF, 0x38, 0x09, 0x5A, 0x6B, 0x45, 0x74, 0x27, 0x16, 0x81, 0xB0, 0xE3, 0xD2] ++
  [0xBF, 0x8E, 0xDD, 0xEC, 0x7B, 0x4A, 0x19, 0x28, 0x06, 0x37, 0x64, 0x55, 0xC2, 0xF3, 0xA0, 0x91] ++
  [0x47, 0x76, 0x25, 0x14, 0x83, 0xB2, 0xE1, 0xD0, 0xFE, 0xCF, 0x9C, 0xAD, 0x3A, 0x0B, 0x58, 0x69] ++
  [0x04, 0x35, 0x66, 0x57, 0xC0, 0xF1, 0xA2, 0x93, 0xBD, 0x8C, 0xDF, 0xEE, 0x79, 0x48, 0x1B, 0x2A] ++
  [0xC1, 0xF0, 0xA3, 0x92, 0x05, 0x34, 0x67, 0x56, 0x78, 0x49, 0x1A, 0x2B, 0xBC, 0x8D, 0xDE, 0xEF] ++
  [0x82, 0xB3, 0xE0, 0xD1, 0x46, 0x77, 0x24, 0x15, 0x3B, 0x0A, 0x59, 0x68, 0xFF, 0xCE, 0x9D, 0xAC]

/-- `T[x]` (R86). -/
def tableT (x : BitVec 8) : BitVec 8 := (tableLow ++ tableHigh).getD x.toNat 0

/-! ### The codec, from the pseudocode of R110 and R112 -/

/-- The flags byte `trunc_8((idx << 1) | w)` (R110). -/
def flagsOf (idx : FuncIndex) (w : Bool) : Byte :=
  (idx.setWidth 8 <<< 1) ||| (BitVec.ofBool w).setWidth 8

/-- The checksum of the frame with these fields (R56). -/
def csumOf (idx : FuncIndex) (w : Bool) (p : Payload) : Byte :=
  crc8 (flagsOf idx w) (p.extractLsb' 8 8) (p.extractLsb' 0 8)

/-- `tx_frame` of `ENCODE(idx, w, p)` (R110). -/
def txWord (idx : FuncIndex) (w : Bool) (p : Payload) : FrameWord :=
  0x3A#8 ++ flagsOf idx w ++ p.extractLsb' 8 8 ++ p.extractLsb' 0 8 ++ csumOf idx w p

/-- `DECODE(f)` (R112). -/
def decodeResult (f : Frame) : Decoded :=
  let eStart := decide (f.start ≠ 0x3A#8)
  let eDir := !f.flags.getLsbD 0
  let eCrc := decide (crc8 f.flags f.ph f.pl ≠ f.csum)
  let valid := !(eStart || eDir || eCrc)
  { valid := valid
    err := BitVec.ofBool eCrc ++ BitVec.ofBool eDir ++ BitVec.ofBool eStart
    idx := if valid then f.flags.extractLsb' 1 7 else 0#7
    payload := if valid then f.ph ++ f.pl else 0#16 }

/-- The frame with these fields and the start marker (R51). -/
def frameOf (idx : FuncIndex) (w : Bool) (p : Payload) (ck : Byte) : Frame :=
  ⟨0x3A#8, flagsOf idx w, p.extractLsb' 8 8, p.extractLsb' 0 8, ck⟩

/-! ### What a step does -/

/-- `buf` and `cnt` are unchanged. -/
def FramerUnchanged (s t : State) : Prop :=
  t.buf.get 0 = s.buf.get 0 ∧ t.buf.get 1 = s.buf.get 1 ∧ t.buf.get 2 = s.buf.get 2 ∧
    t.buf.get 3 = s.buf.get 3 ∧ t.buf.get 4 = s.buf.get 4 ∧ t.cnt = s.cnt

/-- The five `frm_*` outputs are 0. -/
def FrmZero (o : Outputs) : Prop :=
  o.frmDone = false ∧ o.frmValid = false ∧ o.frmErr = 0#3 ∧ o.frmIdx = 0#7 ∧ o.frmPayload = 0#16

/-- The two `tx_*` outputs are 0. -/
def TxZero (o : Outputs) : Prop := o.txValid = false ∧ o.txFrame = 0#40

/-- `frm_done` is 1 and the other `frm_*` outputs are the results of a `DECODE`. -/
def Reports (o : Outputs) (d : Decoded) : Prop :=
  o.frmDone = true ∧ o.frmValid = d.valid ∧ o.frmErr = d.err ∧ o.frmIdx = d.idx ∧
    o.frmPayload = d.payload

/-- The `frm_*` outputs of a step, by the candidate frame it completed: the results of `DECODE` of that
frame (R94), and all 0 where it completed none (R17). -/
def ShowsDelivery (o : Outputs) (completed : Option Frame) : Prop :=
  match completed with
  | none => FrmZero o
  | some f => Reports o (decodeResult f)

/-- The `tx_*` outputs of a step with or without an `ENCODE`. -/
def TxOf (o : Outputs) (enc : Option EncodeOperands) : Prop :=
  match enc with
  | none => TxZero o
  | some e => o.txValid = true ∧ o.txFrame = txWord e.idx e.w e.p

/-- The instruction completes from `s` as `ENCODE(idx, w, p)` does: `tx_valid` is 1, `tx_frame` is the
frame of R110, every `frm_*` output is 0, `buf` and `cnt` are unchanged. -/
def CompletesAsEncode (i : Instr) (s : State) (idx : FuncIndex) (w : Bool) (p : Payload) : Prop :=
  ∃ t, exec i s = .next t ∧ FramerUnchanged s t ∧ FrmZero t.out ∧ t.out.txValid = true ∧
    t.out.txFrame = txWord idx w p

/-- The instruction completes from `s` by delivering the frame with these fields: `cnt` is 0 and
`buf` all 0x00, the `frm_*` outputs are those of R112 for a frame that begins with the marker, and
the `tx_*` outputs are 0. -/
def CompletesByDelivering (i : Instr) (s : State) (idx : FuncIndex) (w : Bool) (p : Payload)
    (ck : Byte) : Prop :=
  ∃ t, exec i s = .next t ∧ t.cnt = 0 ∧ t.buf = ⟨0#8, 0#8, 0#8, 0#8, 0#8⟩ ∧ TxZero t.out ∧
    t.out.frmDone = true ∧
    t.out.frmErr = BitVec.ofBool (decide (ck ≠ csumOf idx w p)) ++ BitVec.ofBool (!w) ++ 0#1 ∧
    (w = true ∧ ck = csumOf idx w p →
      t.out.frmValid = true ∧ t.out.frmIdx = idx ∧ t.out.frmPayload = p) ∧
    (w = false ∨ ck ≠ csumOf idx w p →
      t.out.frmValid = false ∧ t.out.frmIdx = 0#7 ∧ t.out.frmPayload = 0#16)

/-- No byte after the start marker is 0x3A. -/
def Receivable (idx : FuncIndex) (w : Bool) (p : Payload) (ck : Byte) : Prop :=
  flagsOf idx w ≠ 0x3A#8 ∧ p.extractLsb' 8 8 ≠ 0x3A#8 ∧ p.extractLsb' 0 8 ≠ 0x3A#8 ∧ ck ≠ 0x3A#8

/-! ### Which instruction is what -/

/-- The response rows of the function index map (R58) with the index, payload and checksum byte of
the frame each stands for. -/
def responseFields (i : Instr) : Option (FuncIndex × Payload × Byte) :=
  match i with
  | .rspFwver p ck => some (0#7, p, ck)
  | .rspRain p ck => some (1#7, p, ck)
  | .rspSensor p ck => some (2#7, p, ck)
  | .rspOptics p ck => some (3#7, p, ck)
  | .rspRate p ck => some (4#7, p, ck)
  | .rspRsvd5 p ck => some (5#7, p, ck)
  | .rspRsvd6 p ck => some (6#7, p, ck)
  | .rspRsvd7 p ck => some (7#7, p, ck)
  | .rspUnknown idx p ck => some (idx, p, ck)
  | _ => none

/-- Every instruction that receives a whole frame, with the frame's index, direction bit, payload
and checksum byte. -/
def receivedFields (i : Instr) : Option (FuncIndex × Bool × Payload × Byte) :=
  match i with
  | .frameRd .received idx p ck => some (idx, false, p, ck)
  | .frameWr .received idx p ck => some (idx, true, p, ck)
  | _ => (responseFields i).map fun (idx, p, ck) => (idx, true, p, ck)

/-- The instructions that perform an `RXBYTE`. -/
def performsRxbyte (i : Instr) : Bool :=
  match i with
  | .rxbyte _ _ => true
  | _ => (receivedFields i).isSome

/-- The instructions that perform an `ENCODE`. -/
def performsEncode (i : Instr) : Bool :=
  match i with
  | .rxbyte _ enc => enc.isSome
  | .encode _ _ _ => true
  | .frameRd .sent _ _ _ => true
  | .frameWr .sent _ _ _ => true
  | .request _ => true
  | .set _ _ => true
  | .reqFwver => true
  | .reqRain => true
  | .reqSensor => true
  | .reqOptics => true
  | .setCalib => true
  | .setCadence => true
  | _ => false

end Sys2Proof.Claims

open Sys2Proof Sys2Proof.Machine Sys2Proof.Claims

/-! ### CRC8 -/

/-- R80: `CRC8` is the loop of the rule, here on natural numbers with no truncation (R81). -/
def Obligations.Crc8IsTheLoopOfR80 : Prop :=
  ∀ b1 b2 b3 : Byte, (crc8 b1 b2 b3).toNat = natCrc8 b1.toNat b2.toNat b3.toNat

/-- 40_crc8.md section CRC8 (its derived rules R84 (c) and R86): the byte-wise form, with the table
`T` as the spec prints it. -/
def Obligations.Crc8IsThreeTableLookups : Prop :=
  ∀ b1 b2 b3 : Byte, crc8 b1 b2 b3 = tableT (tableT (tableT (0xFF#8 ^^^ b1) ^^^ b2) ^^^ b3)

/-- 40_crc8.md (its derived rule R84 (b)): with two operands fixed, `CRC8` is a bijection of the
third. -/
def Obligations.Crc8BijectiveInEachOperand : Prop :=
  (∀ b2 b3, Function.Bijective fun b1 : Byte => crc8 b1 b2 b3) ∧
  (∀ b1 b3, Function.Bijective fun b2 : Byte => crc8 b1 b2 b3) ∧
  (∀ b1 b2, Function.Bijective fun b3 : Byte => crc8 b1 b2 b3)

/-- 40_crc8.md (R80) with the model's own way of returning a result (log 3): a call of `CRC8`
completes, returns the checksum, writes no state and raises no output. -/
def Obligations.Crc8CallReturnsChecksum : Prop :=
  ∀ (b1 b2 b3 : Byte) (s : State), ∃ t c, exec (.crc8 b1 b2 b3) s = .next t ∧
    FramerUnchanged s t ∧ FrmZero t.out ∧ TxZero t.out ∧ t.ret = .crc8 c ∧
    c.toNat = natCrc8 b1.toNat b2.toNat b3.toNat

/-! ### DECODE -/

/-- R112: `DECODE` is the function of the rule. -/
def Obligations.DecodeIsTheFunctionOfR112 : Prop := ∀ f : Frame, decodeFrame f = decodeResult f

/-- R113: each check sets its own bit of `err`, independently of the others, and a frame is valid
exactly when `err` is 0b000. -/
def Obligations.DecodeChecksAreIndependent : Prop :=
  ∀ f : Frame,
    ((decodeFrame f).err.getLsbD 0 = true ↔ f.start ≠ 0x3A#8) ∧
    ((decodeFrame f).err.getLsbD 1 = true ↔ f.flags.getLsbD 0 = false) ∧
    ((decodeFrame f).err.getLsbD 2 = true ↔ f.csum ≠ crc8 f.flags f.ph f.pl) ∧
    ((decodeFrame f).valid = true ↔ (decodeFrame f).err = 0b000#3)

/-- R117: `DECODE` looks neither at the function index nor at the payload to decide validity: a frame
with any of them is valid once the marker, the direction bit and the checksum are right. -/
def Obligations.ValidityIgnoresIndexAndPayload : Prop :=
  ∀ (idx : FuncIndex) (p : Payload),
    (decodeFrame (frameOf idx true p (csumOf idx true p))).valid = true

/-- R31, R115: the payload is big-endian in the frame, on decoding and on encoding: byte 2 is its high
byte, byte 3 its low byte. -/
def Obligations.PayloadIsBigEndian : Prop :=
  (∀ f : Frame, (decodeFrame f).valid = true →
    (decodeFrame f).payload.toNat = f.ph.toNat * 256 + f.pl.toNat) ∧
  (∀ (idx : FuncIndex) (w : Bool) (p : Payload) (s : State),
    ∃ t, exec (.encode idx w p) s = .next t ∧
      (Frame.ofWord t.out.txFrame).ph.toNat = p.toNat / 256 ∧
      (Frame.ofWord t.out.txFrame).pl.toNat = p.toNat % 256)

/-- 42_codec.md (R112) with the model's own way of returning a result (log 3): a call of `DECODE`
completes, returns the four results, writes no state and raises no output. -/
def Obligations.DecodeCallReturnsResults : Prop :=
  ∀ (f : Frame) (s : State), ∃ t, exec (.decode f) s = .next t ∧ FramerUnchanged s t ∧
    FrmZero t.out ∧ TxZero t.out ∧ t.ret = .decode (decodeResult f)

/-! ### ENCODE and the pseudo-operations -/

/-- R110: `ENCODE` produces `tx_valid` = 1 and the frame, and reads and writes no state: the outputs
are the same from every state. -/
def Obligations.EncodeProducesFrame : Prop :=
  ∀ (idx : FuncIndex) (w : Bool) (p : Payload) (s : State),
    ∃ t, exec (.encode idx w p) s = .next t ∧ FramerUnchanged s t ∧ t.out.txValid = true ∧
      t.out.txFrame = txWord idx w p

/-- R66: `REQUEST idx` is `ENC idx, 0, 0` and `SET idx, p` is `ENC idx, 1, p`: the same next state,
which holds the encoded frame. -/
def Obligations.RequestAndSetAreEncode : Prop :=
  (∀ (idx : FuncIndex) (s : State), ∃ t, exec (.request idx) s = .next t ∧
    exec (.encode idx false 0#16) s = .next t ∧ FramerUnchanged s t ∧ t.out.txValid = true ∧
    t.out.txFrame = txWord idx false 0#16) ∧
  (∀ (idx : FuncIndex) (p : Payload) (s : State), ∃ t, exec (.set idx p) s = .next t ∧
    exec (.encode idx true p) s = .next t ∧ FramerUnchanged s t ∧ t.out.txValid = true ∧
    t.out.txFrame = txWord idx true p)

/-- 30_encoding.md section 3 (the transmit half of the map in R58; execution as `ENCODE` is log 6):
each of the six named frames is sent as the request or set it is, and is the word the opcode table
prints, checksum included. -/
def Obligations.NamedFramesAreSentAsPrinted : Prop :=
  ∀ s : State,
    (CompletesAsEncode .reqFwver s 0#7 false 0#16 ∧ txWord 0#7 false 0#16 = 0x3A0000004B#40) ∧
    (CompletesAsEncode .reqRain s 1#7 false 0#16 ∧ txWord 1#7 false 0#16 = 0x3A020000C7#40) ∧
    (CompletesAsEncode .reqSensor s 2#7 false 0#16 ∧ txWord 2#7 false 0#16 = 0x3A04000062#40) ∧
    (CompletesAsEncode .reqOptics s 3#7 false 0#16 ∧ txWord 3#7 false 0#16 = 0x3A060000EE#40) ∧
    (CompletesAsEncode .setCalib s 3#7 true 0#16 ∧ txWord 3#7 true 0#16 = 0x3A070000A8#40) ∧
    (CompletesAsEncode .setCadence s 5#7 true 0#16 ∧ txWord 5#7 true 0#16 = 0x3A0B0000D3#40)

/-- 42_codec.md section Laws of the pair (its derived rule R119): a frame encoded with `w` = 1 decodes
to its own index and payload, and one encoded with `w` = 0 is rejected by the direction check alone.
The decoder is given the 40 bits that stand on `tx_frame`. -/
def Obligations.EncodedFrameDecodesToOperands : Prop :=
  ∀ (idx : FuncIndex) (p : Payload) (s : State), ∃ t u t' u',
    exec (.encode idx true p) s = .next t ∧
    exec (.decode (Frame.ofWord t.out.txFrame)) t = .next u ∧
    u.ret = .decode ⟨true, 0b000#3, idx, p⟩ ∧
    exec (.encode idx false p) s = .next t' ∧
    exec (.decode (Frame.ofWord t'.out.txFrame)) t' = .next u' ∧
    u'.ret = .decode ⟨false, 0b010#3, 0#7, 0#16⟩

/-- 42_codec.md section Laws of the pair (its derived rule R120): different operands give different
frames, and for any bytes 1 to 3 exactly one checksum byte passes check (c). -/
def Obligations.EncodeInjectiveAndChecksumUnique : Prop :=
  (∀ (e e' : EncodeOperands) (s t t' : State), exec (.encode e.idx e.w e.p) s = .next t →
    exec (.encode e'.idx e'.w e'.p) s = .next t' → t.out.txFrame = t'.out.txFrame → e = e') ∧
  (∀ f : Frame, ∃! c : Byte, (decodeFrame { f with csum := c }).err.getLsbD 2 = false)

/-! ### RXBYTE -/

/-- R91: in every state the marker is stored at `buf[0]` and counted. The registers `buf[1]` to
`buf[4]` keep what they held and nothing is signalled (R93), with or without an `ENCODE` in the
step. -/
def Obligations.MarkerRestartsAccumulation : Prop :=
  ∀ (s : State) (enc : Option EncodeOperands), ∃ t, exec (.rxbyte 0x3A#8 enc) s = .next t ∧
    t.cnt = 1 ∧ t.buf.get 0 = 0x3A#8 ∧ (∀ j : Fin 5, j ≠ 0 → t.buf.get j = s.buf.get j) ∧
    FrmZero t.out ∧ TxOf t.out enc

/-- R92: a byte that is not the marker is stored at `buf[cnt]` and `cnt` goes up by one, in the
seeking-start state as in any other, while the count stays below 5. Every other register keeps
what it held. -/
def Obligations.ByteIsStoredAndCounted : Prop :=
  ∀ (s : State) (b : Byte) (enc : Option EncodeOperands), b ≠ 0x3A#8 → s.cnt.val < 4 →
    ∃ t, exec (.rxbyte b enc) s = .next t ∧ t.cnt.val = s.cnt.val + 1 ∧ t.buf.get s.cnt = b ∧
      (∀ j : Fin 5, j ≠ s.cnt → t.buf.get j = s.buf.get j) ∧ FrmZero t.out ∧ TxOf t.out enc

/-- R94, R95: the byte that makes the count 5 completes the candidate frame; the output record
carries `frm_done` = 1 and the four results of `DECODE`, valid or not, and in the same step the
five registers are 0x00 and `cnt` 0. -/
def Obligations.FifthByteDeliversAndClears : Prop :=
  ∀ (s : State) (b : Byte) (enc : Option EncodeOperands), b ≠ 0x3A#8 → s.cnt = 4 →
    ∃ t, exec (.rxbyte b enc) s = .next t ∧ t.cnt = 0 ∧ (∀ j : Fin 5, t.buf.get j = 0x00#8) ∧
      Reports t.out (decodeResult
        ⟨s.buf.get 0, s.buf.get 1, s.buf.get 2, s.buf.get 3, b⟩) ∧ TxOf t.out enc

/-- R169: an invalid candidate frame is reported in its completion step with every failed check's
flag, with no index and no payload, and the framer is cleared as for a valid frame. -/
def Obligations.InvalidFrameIsReportedAndCleared : Prop :=
  ∀ (s : State) (b : Byte) (enc : Option EncodeOperands), b ≠ 0x3A#8 → s.cnt = 4 →
    (s.buf.get 0 ≠ 0x3A#8 ∨ (s.buf.get 1).getLsbD 0 = false ∨
      b ≠ crc8 (s.buf.get 1) (s.buf.get 2) (s.buf.get 3)) →
    ∃ t, exec (.rxbyte b enc) s = .next t ∧ t.out.frmDone = true ∧ t.out.frmValid = false ∧
      t.out.frmErr = BitVec.ofBool (decide (b ≠ crc8 (s.buf.get 1) (s.buf.get 2) (s.buf.get 3)))
        ++ BitVec.ofBool (!(s.buf.get 1).getLsbD 0) ++ BitVec.ofBool (decide (s.buf.get 0 ≠ 0x3A#8)) ∧
      t.out.frmIdx = 0#7 ∧ t.out.frmPayload = 0#16 ∧ t.cnt = 0 ∧
      (∀ j : Fin 5, t.buf.get j = 0x00#8)

/-- 20_memory.md section 5 and 30_encoding.md section 3 (R41, R53 `sel` = 011): an `RXBYTE` and an
`ENCODE` in one step do what they do in two steps, in either order, to the state and to each
other's outputs. -/
def Obligations.RxbyteAndEncodeCommute : Prop :=
  ∀ (s : State) (b : Byte) (e : EncodeOperands), ∃ t r re n er,
    exec (.rxbyte b (some e)) s = .next t ∧
    exec (.rxbyte b none) s = .next r ∧ exec (.encode e.idx e.w e.p) r = .next re ∧
    exec (.encode e.idx e.w e.p) s = .next n ∧ exec (.rxbyte b none) n = .next er ∧
    (t.buf = re.buf ∧ t.cnt = re.cnt) ∧ (t.buf = er.buf ∧ t.cnt = er.cnt) ∧
    (t.out.frmDone = r.out.frmDone ∧ t.out.frmValid = r.out.frmValid ∧
      t.out.frmErr = r.out.frmErr ∧ t.out.frmIdx = r.out.frmIdx ∧
      t.out.frmPayload = r.out.frmPayload) ∧
    er.out = r.out ∧
    (t.out.txValid = n.out.txValid ∧ t.out.txFrame = n.out.txFrame) ∧ re.out = n.out

/-- 41_framer.md section Laws (its derived rule R101): a candidate frame the framer delivers, from a
state with no marker after byte 0 (R22), has the marker at byte 0 or nowhere. In the second case it
is not valid; the payload of a valid one has no byte 0x3A, nor is `{idx, 1}` ever 0x3A. -/
def Obligations.DeliveredFrameShape : Prop :=
  ∀ (s : State) (b : Byte) (f : Frame), s.buf.TailFree → (s.acceptByte b).2 = some f →
    f.TailFree ∧
    ((decodeFrame f).valid = true →
      f.start = 0x3A#8 ∧ f.TailFree ∧
      (decodeFrame f).payload.extractLsb' 8 8 ≠ 0x3A#8 ∧
      (decodeFrame f).payload.extractLsb' 0 8 ≠ 0x3A#8 ∧
      (decodeFrame f).idx ++ 1#1 ≠ 0x3A#8)

/-! ### Frames received whole -/

/-- 30_encoding.md sections 3 and 4 (R58, R62; five bytes in one step is log 5): a response of any
index, reserved and unknown ones included, is delivered from every state; with the right checksum
it is valid with its own index and payload, and otherwise it is reported with `E_CRC` alone. Covers
the rows RSP.FWVER, RSP.RAIN, RSP.SENSOR, RSP.OPTICS, RSP.RATE, RSP.RSVD5, RSP.RSVD6, RSP.RSVD7 and
RSP.UNKNOWN. -/
def Obligations.ResponsesOfEveryIndexDelivered : Prop :=
  ∀ (i : Instr) (idx : FuncIndex) (p : Payload) (ck : Byte) (s : State),
    responseFields i = some (idx, p, ck) → Receivable idx true p ck →
      CompletesByDelivering i s idx true p ck

/-- 30_encoding.md section 3 (R59; execution is log 5 and log 6): a frame of class `FRAME.RD` or
`FRAME.WR` is sent as the `ENCODE` that builds it, in every state; received, in every state and
with no 0x3A after byte 0, it is delivered: a read request is reported with `E_DIR` and never valid,
a write frame is a response, valid when the checksum matches. -/
def Obligations.FrameClassesSentAndReceived : Prop :=
  ∀ (idx : FuncIndex) (p : Payload) (ck : Byte) (s : State),
    CompletesAsEncode (.frameRd .sent idx p ck) s idx false p ∧
    CompletesAsEncode (.frameWr .sent idx p ck) s idx true p ∧
    (Receivable idx false p ck →
      CompletesByDelivering (.frameRd .received idx p ck) s idx false p ck) ∧
    (Receivable idx true p ck →
      CompletesByDelivering (.frameWr .received idx p ck) s idx true p ck)

/-- 30_encoding.md section 4 (R61; a frame received in one step with the fifth byte's record is log 5;
the count left behind is derived from R91 to R93, R188): the framer cannot deliver a frame that has
0x3A at any of the positions 1 to 4, flags and checksum included: from every state its five bytes
end with the marker at `buf[0]`, the bytes since the last marker counted, and no output. The
encoder does not check for it: it completes with the frame for every operand triple. -/
def Obligations.MarkedFrameIsNeverDelivered : Prop :=
  (∀ (i : Instr) (idx : FuncIndex) (w : Bool) (p : Payload) (ck : Byte) (s : State),
    receivedFields i = some (idx, w, p, ck) → ¬ Receivable idx w p ck →
      ∃ t, exec i s = .next t ∧ FrmZero t.out ∧ TxZero t.out ∧ t.buf.get 0 = 0x3A#8 ∧
        t.cnt.val = (if ck = 0x3A#8 then 1 else if p.extractLsb' 0 8 = 0x3A#8 then 2
          else if p.extractLsb' 8 8 = 0x3A#8 then 3 else 4)) ∧
  (∀ (idx : FuncIndex) (w : Bool) (p : Payload) (s : State),
    CompletesAsEncode (.encode idx w p) s idx w p)

/-- 30_encoding.md section 5 (R65: `RX` with five bytes abbreviates one `RX` per byte; one step for
the five is log 5): an instruction that receives a frame ends in the very state that five `RXBYTE`
steps with its bytes end in, and the first four of these give no output. -/
def Obligations.ReceivedFrameIsFiveRxbytes : Prop :=
  ∀ (i : Instr) (idx : FuncIndex) (w : Bool) (p : Payload) (ck : Byte) (s : State),
    receivedFields i = some (idx, w, p, ck) → ∃ s1 s2 s3 s4 t,
      exec (.rxbyte 0x3A#8 none) s = .next s1 ∧
      exec (.rxbyte (flagsOf idx w) none) s1 = .next s2 ∧
      exec (.rxbyte (p.extractLsb' 8 8) none) s2 = .next s3 ∧
      exec (.rxbyte (p.extractLsb' 0 8) none) s3 = .next s4 ∧
      exec (.rxbyte ck none) s4 = .next t ∧
      exec i s = .next t ∧
      s1.out = Outputs.zero ∧ s2.out = Outputs.zero ∧ s3.out = Outputs.zero ∧
      s4.out = Outputs.zero

/-- 70_reset_and_hazards.md section Hazards (its derived rule R190; a frame received in one step is
log 5): a `SET` frame heard back is
delivered as valid with the index and payload that were sent, and a `REQUEST` frame heard back is
rejected with `E_DIR` alone. The bytes received are those on `tx_frame`. -/
def Obligations.EchoOfSetIsAcceptedOfRequestRejected : Prop :=
  (∀ (idx : FuncIndex) (p : Payload) (s : State), Receivable idx true p (csumOf idx true p) →
    ∃ t, exec (.set idx p) s = .next t ∧ ∃ u,
      exec (.frameWr .received idx p (Frame.ofWord t.out.txFrame).csum) t = .next u ∧
      t.out.txFrame = (Frame.make idx true p (Frame.ofWord t.out.txFrame).csum).toWord ∧
      u.out.frmDone = true ∧ u.out.frmValid = true ∧ u.out.frmErr = 0b000#3 ∧
      u.out.frmIdx = idx ∧ u.out.frmPayload = p) ∧
  (∀ (idx : FuncIndex) (s : State), Receivable idx false 0#16 (csumOf idx false 0#16) →
    ∃ t, exec (.request idx) s = .next t ∧ ∃ u,
      exec (.frameRd .received idx 0#16 (Frame.ofWord t.out.txFrame).csum) t = .next u ∧
      t.out.txFrame = (Frame.make idx false 0#16 (Frame.ofWord t.out.txFrame).csum).toWord ∧
      u.out.frmDone = true ∧ u.out.frmValid = false ∧ u.out.frmErr = 0b010#3 ∧
      u.out.frmIdx = 0#7 ∧ u.out.frmPayload = 0#16)

/-! ### Byte streams -/

/-- 41_framer.md section Laws (its derived rule R102, first half): from any state, after any bytes,
the five bytes `3A x1 x2 x3 x4` with no `xi` equal to 0x3A complete with that candidate frame
exactly; it is the one frame delivered after the bytes before, and the framer is cleared. -/
def Obligations.ResynchronisationFromAnyState : Prop :=
  ∀ (s : State) (bs : List Byte) (f : Frame), f.start = 0x3A#8 → f.TailFree →
    (s.feed (bs ++ [f.start, f.flags, f.ph, f.pl, f.csum])).2 = (s.feed bs).2 ++ [f] ∧
    (s.feed (bs ++ [f.start, f.flags, f.ph, f.pl, f.csum])).1.Cleared

/-- 41_framer.md section Laws (its derived rule R102, second half; 95_test_vectors.md S5): from
seeking-start, any bytes with no marker among them followed by a valid frame free of the marker
after byte 0 give exactly one valid frame, equal to that frame. -/
def Obligations.GarbagePrefixYieldsExactlyOneValidFrame : Prop :=
  ∀ (s : State) (bs : List Byte) (f : Frame), s.Seeking → (∀ b ∈ bs, b ≠ 0x3A#8) → f.TailFree →
    (decodeFrame f).valid = true →
    ((s.feed (bs ++ [f.start, f.flags, f.ph, f.pl, f.csum])).2.filter
      fun g => (decodeFrame g).valid) = [f]

/-- 41_framer.md section Corner cases (its derived rule R99): five bytes with no marker, from
seeking-start, are delivered as one candidate frame with `E_START` set. -/
def Obligations.FiveNonMarkerBytesAreDeliveredInvalid : Prop :=
  ∀ (s : State) (f : Frame), s.Seeking → f.start ≠ 0x3A#8 → f.TailFree →
    (s.feed [f.start, f.flags, f.ph, f.pl, f.csum]).2 = [f] ∧
    (s.feed [f.start, f.flags, f.ph, f.pl, f.csum]).1.Cleared ∧
    (decodeFrame f).valid = false ∧ (decodeFrame f).err.getLsbD 0 = true

/-- 20_memory.md section 5 (R40) with the model's queue of pending stimuli (log 1): received bytes
that are pending are processed strictly in arrival order, one a step, exactly as the stream of bytes
is fed to the framer, and what is pending after them is left pending. The step of byte `k` shows on
the `frm_*` outputs what `DECODE` gives for the frame that byte completes, and all 0 where it
completes none (R17, R94), and `State.feed` delivers that frame and no other at that byte: what
`feed` calls delivered is what the output records show. -/
def Obligations.PendingBytesRunAsTheStream : Prop :=
  ∀ (bs : List Byte) (rest : List Stimulus) (s : State),
    s.pending = bs.map rxStimulus ++ rest →
      (∃ t, Sys2Proof.core.run bs.length s = .next t ∧ t.buf = (s.feed bs).1.buf ∧
        t.cnt = (s.feed bs).1.cnt ∧ t.pending = rest) ∧
      ∀ (k : Nat) (hk : k < bs.length), ∃ u t,
        Sys2Proof.core.run k s = .next u ∧ step u = .next t ∧
        Sys2Proof.core.run (k + 1) s = .next t ∧
        ShowsDelivery t.out (u.acceptByte bs[k]).2 ∧ TxZero t.out ∧
        (s.feed (bs.take (k + 1))).2 =
          (s.feed (bs.take k)).2 ++ (u.acceptByte bs[k]).2.toList

/-! ### RESET, IDLE, and the ports -/

/-- R23: after `RESET`, from every state, `cnt` is 0 and the five registers are 0x00. -/
def Obligations.ResetClearsAllState : Prop :=
  ∀ s : State, ∃ t, exec .reset s = .next t ∧ t.cnt = 0 ∧ t.buf.get 0 = 0x00#8 ∧
    t.buf.get 1 = 0x00#8 ∧ t.buf.get 2 = 0x00#8 ∧ t.buf.get 3 = 0x00#8 ∧ t.buf.get 4 = 0x00#8

/-- R181: `RESET` may be asserted in any state and any number of times and is idempotent; a partial
frame is discarded without `frm_done`, and an `ENCODE` requested in the same step is not performed. -/
def Obligations.ResetOverridesAndIsIdempotent : Prop :=
  ∀ (p : PortInputs) (rest : List Stimulus) (s : State), p.rst = true →
    s.pending = .ports p :: .ports p :: rest →
      ∃ t u, step s = .next t ∧ step t = .next u ∧
        t.cnt = 0 ∧ t.buf = ⟨0#8, 0#8, 0#8, 0#8, 0#8⟩ ∧ t.out.frmDone = false ∧
        t.out.txValid = false ∧ u.cnt = t.cnt ∧ u.buf = t.buf ∧ u.out = t.out

/-- 30_encoding.md section 3 (the `IDLE` row of R53): `IDLE` completes from every state, leaves it
unchanged, and every output is 0. -/
def Obligations.IdleLeavesStateUnchanged : Prop :=
  ∀ s : State, ∃ t, exec .idle s = .next t ∧ FramerUnchanged s t ∧ FrmZero t.out ∧ TxZero t.out

/-- R100: only `RXBYTE` and `RESET` change `buf` and `cnt`; a partial frame stays through every other
step, which completes. (An instruction that receives a frame performs `RXBYTE`.) -/
def Obligations.OnlyRxbyteAndResetChangeTheFramer : Prop :=
  ∀ (i : Instr) (s : State), performsRxbyte i = false → i ≠ .reset →
    ∃ t, exec i s = .next t ∧ FramerUnchanged s t

/-- R17: in a step that is no `RXBYTE` step, and in an `RXBYTE` step that completes no candidate
frame, the five `frm_*` outputs are 0; in a step that is no `ENCODE` step the two `tx_*` outputs
are 0. -/
def Obligations.OutputsAreZeroUnlessProduced : Prop :=
  ∀ (i : Instr) (s t : State), exec i s = .next t →
    (performsRxbyte i = false → FrmZero t.out) ∧
    (performsRxbyte i = true → t.out.frmDone = false → FrmZero t.out) ∧
    (performsEncode i = false → TxZero t.out)

/-- R186 (R16): outputs are not held: what an instruction does depends neither on the output record
of the step before nor on what that step returned. -/
def Obligations.OutputsAreNotHeld : Prop :=
  ∀ (i : Instr) (s : State) (o : Outputs) (r : Returned),
    exec i { s with out := o, ret := r } = exec i s

/-- R64: no `sel` pattern is illegal and every value on the data inputs is accepted: a step on any
port inputs, in any state, has a next state. -/
def Obligations.EveryPortPatternIsAccepted : Prop :=
  ∀ (p : PortInputs) (rest : List Stimulus) (s : State), s.pending = .ports p :: rest →
    ∃ t, step s = .next t

/-- 30_encoding.md section 3 (the select table of R53): what each pattern of `sel` performs, and that
inputs whose enable is 0 do not matter (93_implementation_defined.md U10). -/
def Obligations.SelectPerformsTheEnabledOperations : Prop :=
  ∀ p : PortInputs,
    (p.sel.getLsbD 2 = true → decode (.ports p) = .ok .reset) ∧
    (p.sel = 0b000#3 → decode (.ports p) = .ok .idle) ∧
    (p.sel = 0b001#3 → decode (.ports p) = .ok (.rxbyte p.rxData none)) ∧
    (p.sel = 0b010#3 → decode (.ports p) = .ok (.encode p.encIdx p.encWrite p.encPayload)) ∧
    (p.sel = 0b011#3 →
      decode (.ports p) = .ok (.rxbyte p.rxData (some ⟨p.encIdx, p.encWrite, p.encPayload⟩)))

/-- 93_implementation_defined.md section 1 (with R195, R164; that every row of the table, and not only an
event, has a next state is log 18) and 20_memory.md section 5 (R44): every `RXBYTE` is accepted in
the state it finds, and so is every other instruction: none faults, is refused, or waits, in any
state. -/
def Obligations.NoInstructionStops : Prop :=
  ∀ (i : Instr) (s : State), ∃ t, exec i s = .next t

/-! ### The step -/

/-- The model's own step (log 1): when the first pending stimulus decodes to `i`, the step is `exec i`
with that stimulus taken from what is pending; nothing else is around it, and `exec` leaves the
rest pending. -/
def Obligations.StepRunsTheDecodedInstruction : Prop :=
  ∀ (s : State) (x : Stimulus) (rest : List Stimulus) (i : Instr), s.pending = x :: rest →
    decode x = .ok i →
      step s = exec i { s with pending := rest } ∧ ∃ t, step s = .next t ∧ t.pending = rest

/-- The model's own step (log 4, log 9): with nothing pending the step is the idle step, and a pending
stimulus that is no row of the opcode table is refused with the decoder's reason. -/
def Obligations.StepIdlesOrRefusesByName : Prop :=
  (∀ s : State, s.pending = [] → step s = exec .idle s) ∧
  (∀ (s : State) (x : Stimulus) (rest : List Stimulus) (e : DecodeError), s.pending = x :: rest →
    decode x = .error e → step s = .refused (.badStimulus e))

/-- The model's own presentation of a table word (log 15): when the word decodes, the next step from
any state runs exactly that instruction. -/
def Obligations.FetchedWordRunsNext : Prop :=
  ∀ (s : State) (nbits w : Nat) (i : Instr), decodeTableWord nbits w = some i →
    step (s.withFetchWord nbits w) = exec i s

/-! ### Invariants -/

/-- 10_state.md section 4 (its derived rule R22): the invariant holds right after reset. -/
def Obligations.ResetStateMeetsInvariant : Prop := State.reset.Inv

/-- 10_state.md sections 3 and 4 (its derived rule R22, with R16, R17): every step from a state that
meets the invariant leads to one that meets it: no byte after byte 0 of the buffer is 0x3A, the
output record is coherent, and a delivery leaves the framer cleared. -/
def Obligations.StepKeepsInvariant : Prop :=
  ∀ s t : State, s.Inv → step s = .next t → t.Inv

/-! ### Encodings -/

/-- Every well-formed instruction is what its own words decode to, operands included. -/
def Obligations.DecodeOfEncodeIsTheInstruction : Prop :=
  ∀ i : Instr, i.wellFormed = true → decode (encode i) = .ok i

/-- What the decoder accepts is well formed, and, but for port inputs that no enable asks for, its
words are the instruction's own words. -/
def Obligations.EncodeOfDecodeIsTheWord : Prop :=
  ∀ (x : Stimulus) (i : Instr), decode x = .ok i →
    i.wellFormed = true ∧ ((∀ p, x ≠ .ports p) → encode i = x)

/-- Words written out from the spec's encodings decode to the instructions they stand for. -/
def Obligations.WrittenWordsDecode : Prop :=
  decode (.ports ⟨true, true, 0x3A#8, true, 4#7, true, 200#16⟩) = .ok .reset ∧
  decode (.ports ⟨false, true, 0x3A#8, false, 0#7, false, 0#16⟩) = .ok (.rxbyte 0x3A#8 none) ∧
  decode (.callCrc8 0b000010010000000011001000#24) = .ok (.crc8 0x09#8 0x00#8 0xC8#8) ∧
  decode (.callDecode 0x3A0900C8A1#40) = .ok (.decode ⟨0x3A#8, 0x09#8, 0x00#8, 0xC8#8, 0xA1#8⟩) ∧
  decode (.pseudo 0b0011101000000010000000000000000011000111#40) = .ok (.request 1#7) ∧
  decode (.pseudo 0x3A0900C8A1#40) = .ok (.set 4#7 200#16) ∧
  decode (.frame .received 0x3A080000FF#40) = .ok (.frameRd .received 4#7 0#16 0xFF#8) ∧
  decode (.named .sent 0x3A060000EE#40) = .ok .reqOptics ∧
  decode (.named .received 0b0011101000001001000000001100100010100001#40) =
    .ok (.rspRate 200#16 0xA1#8) ∧
  decode (.named .received 0x3A8112346E#40) = .ok (.rspUnknown 64#7 0x1234#16 0x6E#8)
end

