-- ==== Sys2Proof/Laws/Bits.lean ====
section
/-!
SUPPORT. Bits: what the operand forms do to bits. Packing and unpacking are inverse to each other:
flags byte (R55), payload (R54), frame word (R51), operand of `CRC8`.
-/

namespace Sys2Proof

theorem funcIndex_width : FuncIndex = BitVec Config.idxBits := rfl

theorem payload_width : Payload = BitVec Config.payloadBits := rfl

/-! ### The flags byte -/

@[simp] theorem flagsIdx_flagsByte (idx : FuncIndex) (w : Bool) :
    flagsIdx (flagsByte idx w) = idx := by revert idx w; decide

@[simp] theorem flagsDir_flagsByte (idx : FuncIndex) (w : Bool) :
    flagsDir (flagsByte idx w) = w := by revert idx w; decide

@[simp] theorem flagsByte_flagsIdx_flagsDir (b : Byte) :
    flagsByte (flagsIdx b) (flagsDir b) = b := by revert b; decide

/-- The index is flags bits 7:1 (R51). -/
theorem flagsIdx_eq_extract (b : Byte) : flagsIdx b = b.extractLsb' 1 7 := by revert b; decide

/-- The direction bit is flags bit 0 (R51). -/
theorem flagsDir_eq_bit (b : Byte) : flagsDir b = b.getLsbD 0 := by revert b; decide

/-- The flags byte is the index followed by the direction bit (R51). -/
theorem flagsByte_eq_append (idx : FuncIndex) (w : Bool) :
    flagsByte idx w = idx ++ BitVec.ofBool w := by revert idx w; decide

/-- A flags byte with `W` = 1 is odd, so it is never the start marker (R101). -/
theorem flagsByte_write_ne_marker (idx : FuncIndex) : flagsByte idx true ≠ Config.startMarker := by
  revert idx; decide

/-- With `W` = 0 only index 29 gives the start marker (R187 (a)). -/
theorem flagsByte_read_eq_marker (idx : FuncIndex) :
    flagsByte idx false = Config.startMarker ↔ idx = 29#7 := by revert idx; decide

/-! ### The payload -/

theorem payloadSplit_eq (p : Payload) : payloadSplit p = (p.extractLsb' 8 8, p.extractLsb' 0 8) :=
  rfl

theorem payloadJoin_eq (b2 b3 : Byte) : payloadJoin b2 b3 = b2 ++ b3 := rfl

@[simp] theorem payloadJoin_payloadSplit (p : Payload) :
    payloadJoin (payloadSplit p).1 (payloadSplit p).2 = p := by
  rw [payloadJoin_eq, payloadSplit_eq]
  dsimp only
  rw [BitVec.extractLsb'_append_extractLsb'_eq_extractLsb' (show 8 = 0 + 8 from rfl)]
  simp

@[simp] theorem payloadSplit_payloadJoin (b2 b3 : Byte) :
    payloadSplit (payloadJoin b2 b3) = (b2, b3) := by
  rw [payloadJoin_eq, payloadSplit_eq, BitVec.extractLsb'_append_eq_left,
    BitVec.extractLsb'_append_eq_right]

/-! ### The frame word -/

@[simp] theorem Frame.ofWord_toWord (f : Frame) : Frame.ofWord f.toWord = f := by
  have h0 : f.toWord.extractLsb' 32 8 = f.start := by
    unfold Frame.toWord
    rw [BitVec.extractLsb'_append_eq_of_le (by decide), BitVec.extractLsb'_append_eq_of_le (by decide),
      BitVec.extractLsb'_append_eq_of_le (by decide), BitVec.extractLsb'_append_eq_left]
  have h1 : f.toWord.extractLsb' 24 8 = f.flags := by
    unfold Frame.toWord
    rw [BitVec.extractLsb'_append_eq_of_le (by decide), BitVec.extractLsb'_append_eq_of_le (by decide),
      BitVec.extractLsb'_append_eq_of_le (by decide), BitVec.extractLsb'_append_eq_right]
  have h2 : f.toWord.extractLsb' 16 8 = f.ph := by
    unfold Frame.toWord
    rw [BitVec.extractLsb'_append_eq_of_le (by decide), BitVec.extractLsb'_append_eq_of_le (by decide),
      BitVec.extractLsb'_append_eq_right]
  have h3 : f.toWord.extractLsb' 8 8 = f.pl := by
    unfold Frame.toWord
    rw [BitVec.extractLsb'_append_eq_of_le (by decide), BitVec.extractLsb'_append_eq_right]
  have h4 : f.toWord.extractLsb' 0 8 = f.csum := by
    unfold Frame.toWord
    rw [BitVec.extractLsb'_append_eq_right]
  simp only [Frame.ofWord, h0, h1, h2, h3, h4]

@[simp] theorem Frame.toWord_ofWord (w : FrameWord) : (Frame.ofWord w).toWord = w := by
  unfold Frame.toWord Frame.ofWord
  dsimp only
  rw [BitVec.extractLsb'_append_extractLsb'_eq_extractLsb' (show 32 = 24 + 8 from rfl),
    BitVec.extractLsb'_append_extractLsb'_eq_extractLsb' (show 24 = 16 + 8 from rfl),
    BitVec.extractLsb'_append_extractLsb'_eq_extractLsb' (show 16 = 8 + 8 from rfl),
    BitVec.extractLsb'_append_extractLsb'_eq_extractLsb' (show 8 = 0 + 8 from rfl)]
  simp

theorem Frame.toWord_injective {f g : Frame} (h : f.toWord = g.toWord) : f = g := by
  rw [← Frame.ofWord_toWord f, h, Frame.ofWord_toWord]

/-! ### A frame by its fields -/

@[simp] theorem Frame.make_start (idx w p ck) :
    (Frame.make idx w p ck).start = Config.startMarker := rfl
@[simp] theorem Frame.make_flags (idx w p ck) : (Frame.make idx w p ck).flags = flagsByte idx w := rfl
@[simp] theorem Frame.make_ph (idx w p ck) : (Frame.make idx w p ck).ph = (payloadSplit p).1 := rfl
@[simp] theorem Frame.make_pl (idx w p ck) : (Frame.make idx w p ck).pl = (payloadSplit p).2 := rfl
@[simp] theorem Frame.make_csum (idx w p ck) : (Frame.make idx w p ck).csum = ck := rfl

@[simp] theorem Frame.make_idx (idx w p ck) : (Frame.make idx w p ck).idx = idx := by
  simp [Frame.idx]
@[simp] theorem Frame.make_dir (idx w p ck) : (Frame.make idx w p ck).dir = w := by
  simp [Frame.dir]
@[simp] theorem Frame.make_payload (idx w p ck) : (Frame.make idx w p ck).payload = p := by
  simp [Frame.payload]

/-- A frame that begins with the marker is the frame made of its fields. -/
theorem Frame.make_fields (f : Frame) (h : f.start = Config.startMarker) :
    Frame.make f.idx f.dir f.payload f.csum = f := by
  simp [Frame.make, Frame.idx, Frame.dir, Frame.payload, ← h]

/-! ### Bytes by number -/

@[simp] theorem Frame.get_put_same (f : Frame) (i : Fin 5) (v : Byte) : (f.put i v).get i = v := by
  fin_cases i <;> rfl

@[simp] theorem Frame.get_put_other (f : Frame) {i j : Fin 5} (v : Byte) (h : j ≠ i) :
    (f.put i v).get j = f.get j := by
  fin_cases i <;> fin_cases j <;> first | rfl | exact absurd rfl h

theorem Frame.get_ext {f g : Frame} (h : ∀ i, f.get i = g.get i) : f = g := by
  cases f; cases g
  have h0 := h 0; have h1 := h 1; have h2 := h 2; have h3 := h 3; have h4 := h 4
  simp only [Frame.get] at h0 h1 h2 h3 h4
  simp [h0, h1, h2, h3, h4]

/-! ### The operand of `CRC8` -/

theorem crcWord_bytes (a b c : Byte) :
    (a ++ b ++ c : BitVec 24).extractLsb' 16 8 = a ∧ (a ++ b ++ c : BitVec 24).extractLsb' 8 8 = b ∧
      (a ++ b ++ c : BitVec 24).extractLsb' 0 8 = c := by
  refine ⟨?_, ?_, ?_⟩
  · rw [BitVec.extractLsb'_append_eq_of_le (by decide), BitVec.extractLsb'_append_eq_left]
  · rw [BitVec.extractLsb'_append_eq_of_le (by decide), BitVec.extractLsb'_append_eq_right]
  · rw [BitVec.extractLsb'_append_eq_right]

theorem crcWord_append (w : BitVec 24) :
    (w.extractLsb' 16 8 ++ w.extractLsb' 8 8 ++ w.extractLsb' 0 8 : BitVec 24) = w := by
  rw [BitVec.extractLsb'_append_extractLsb'_eq_extractLsb' (show 16 = 8 + 8 from rfl),
    BitVec.extractLsb'_append_extractLsb'_eq_extractLsb' (show 8 = 0 + 8 from rfl)]
  simp

end Sys2Proof
end

