-- ==== Sys2Proof/Laws/Crc.lean ====
section
/-! SUPPORT. Crc: the laws of the checksum (40_crc8.md R81, R83, R84) and of the encoded frame. -/

namespace Sys2Proof

/-- The 9-bit form and the truncated form of a round agree (R81). -/
theorem crcRound_eq_trunc (c : Byte) :
    crcRound c = if c.msb then (c <<< 1) ^^^ Config.crcPoly8 else c <<< 1 := by revert c; decide

/-- One byte into the running value is the eight rounds of the exclusive-or. -/
theorem crcStep_eq (c b : Byte) : crcStep c b = crcShift 8 (c ^^^ b) := rfl

/-- The byte-wise form of R84 (c), with the eight rounds for the table. -/
theorem crc8_eq (b1 b2 b3 : Byte) :
    crc8 b1 b2 b3 = crcShift 8 (crcShift 8 (crcShift 8 (0xFF#8 ^^^ b1) ^^^ b2) ^^^ b3) := rfl

/-- The checksum covers the flags byte and the two payload bytes, in this order (R83). -/
@[simp] theorem Frame.checksum_eq (f : Frame) : f.checksum = crc8 f.flags f.ph f.pl := rfl

/-- The eight rounds undone: the inverse linear map, from the top bit of the polynomial down. -/
def crcUnround (c : Byte) : Byte :=
  if c.getLsbD 0 then ((c ^^^ Config.crcPoly8) >>> 1) ||| 0x80#8 else c >>> 1

theorem crcUnround_crcRound (c : Byte) : crcUnround (crcRound c) = c := by revert c; decide

theorem crcRound_injective {c d : Byte} (h : crcRound c = crcRound d) : c = d := by
  rw [← crcUnround_crcRound c, h, crcUnround_crcRound]

theorem crcShift_injective (n : Nat) {c d : Byte} (h : crcShift n c = crcShift n d) : c = d := by
  induction n generalizing c d with
  | zero => exact h
  | succ n ih => exact crcRound_injective (ih h)

/-! ### The frame `ENCODE` builds (R110) -/

theorem encodeFrame_eq_make (idx : FuncIndex) (w : Bool) (p : Payload) :
    encodeFrame idx w p
      = Frame.make idx w p (crc8 (flagsByte idx w) (payloadSplit p).1 (payloadSplit p).2) := rfl

@[simp] theorem encodeFrame_csum (idx w p) :
    (encodeFrame idx w p).csum = (encodeFrame idx w p).checksum := rfl

@[simp] theorem encodeFrame_idx (idx w p) : (encodeFrame idx w p).idx = idx := by
  simp [encodeFrame_eq_make]
@[simp] theorem encodeFrame_dir (idx w p) : (encodeFrame idx w p).dir = w := by
  simp [encodeFrame_eq_make]
@[simp] theorem encodeFrame_payload (idx w p) : (encodeFrame idx w p).payload = p := by
  simp [encodeFrame_eq_make]
@[simp] theorem encodeFrame_start (idx w p) :
    (encodeFrame idx w p).start = Config.startMarker := rfl

/-- A frame that begins with the marker and carries its checksum is an encoded frame. -/
theorem encodeFrame_fields (f : Frame) (hs : f.start = Config.startMarker)
    (hc : f.csum = f.checksum) : encodeFrame f.idx f.dir f.payload = f := by
  have h := Frame.make_fields f hs
  rw [encodeFrame_eq_make]
  have e : crc8 (flagsByte f.idx f.dir) (payloadSplit f.payload).1 (payloadSplit f.payload).2
      = f.csum := by
    simp [hc, Frame.idx, Frame.dir, Frame.payload]
  rw [e, h]

end Sys2Proof
end

