-- ==== Sys2Proof/Laws/State.lean ====
section
/-! SUPPORT. State: one lemma per field per update of the state and of the output record. -/

namespace Sys2Proof.Machine

open Sys2Proof

variable (s : State) (i : Fin 5) (v : Byte) (c : Fin 5) (o : Outputs) (r : Returned)

@[simp] theorem State.readBuf_eq : s.readBuf i = s.buf.get i := rfl

@[simp] theorem State.writeBuf_buf : (s.writeBuf i v).buf = s.buf.put i v := rfl
@[simp] theorem State.writeBuf_cnt : (s.writeBuf i v).cnt = s.cnt := rfl
@[simp] theorem State.writeBuf_pending : (s.writeBuf i v).pending = s.pending := rfl
@[simp] theorem State.writeBuf_out : (s.writeBuf i v).out = s.out := rfl
@[simp] theorem State.writeBuf_ret : (s.writeBuf i v).ret = s.ret := rfl

@[simp] theorem State.writeCnt_buf : (s.writeCnt c).buf = s.buf := rfl
@[simp] theorem State.writeCnt_cnt : (s.writeCnt c).cnt = c := rfl
@[simp] theorem State.writeCnt_pending : (s.writeCnt c).pending = s.pending := rfl
@[simp] theorem State.writeCnt_out : (s.writeCnt c).out = s.out := rfl
@[simp] theorem State.writeCnt_ret : (s.writeCnt c).ret = s.ret := rfl

@[simp] theorem State.clearFramer_buf : s.clearFramer.buf = Frame.zero := rfl
@[simp] theorem State.clearFramer_cnt : s.clearFramer.cnt = 0 := rfl
@[simp] theorem State.clearFramer_pending : s.clearFramer.pending = s.pending := rfl
@[simp] theorem State.clearFramer_out : s.clearFramer.out = s.out := rfl
@[simp] theorem State.clearFramer_ret : s.clearFramer.ret = s.ret := rfl

@[simp] theorem State.withOutputs_buf : (s.withOutputs o).buf = s.buf := rfl
@[simp] theorem State.withOutputs_cnt : (s.withOutputs o).cnt = s.cnt := rfl
@[simp] theorem State.withOutputs_pending : (s.withOutputs o).pending = s.pending := rfl
@[simp] theorem State.withOutputs_out : (s.withOutputs o).out = o := rfl
@[simp] theorem State.withOutputs_ret : (s.withOutputs o).ret = .nothing := rfl

@[simp] theorem State.withReturned_buf : (s.withReturned r).buf = s.buf := rfl
@[simp] theorem State.withReturned_cnt : (s.withReturned r).cnt = s.cnt := rfl
@[simp] theorem State.withReturned_pending : (s.withReturned r).pending = s.pending := rfl
@[simp] theorem State.withReturned_out : (s.withReturned r).out = Outputs.zero := rfl
@[simp] theorem State.withReturned_ret : (s.withReturned r).ret = r := rfl

@[simp] theorem State.withFetchWord_buf (n w : Nat) : (s.withFetchWord n w).buf = s.buf := rfl
@[simp] theorem State.withFetchWord_cnt (n w : Nat) : (s.withFetchWord n w).cnt = s.cnt := rfl
@[simp] theorem State.withFetchWord_pending (n w : Nat) :
    (s.withFetchWord n w).pending = stimulusOfTableWord n w :: s.pending := rfl
@[simp] theorem State.withFetchWord_out (n w : Nat) : (s.withFetchWord n w).out = s.out := rfl
@[simp] theorem State.withFetchWord_ret (n w : Nat) : (s.withFetchWord n w).ret = s.ret := rfl

/-! ### The output record -/

variable (f : Frame) (e : EncodeOperands) (d : Option Frame) (oe : Option EncodeOperands)

@[simp] theorem Outputs.withDelivered_none : o.withDelivered none = o := rfl
@[simp] theorem Outputs.withEncoded_none : o.withEncoded none = o := rfl

@[simp] theorem Outputs.withDelivered_txValid : (o.withDelivered d).txValid = o.txValid := by
  cases d <;> rfl
@[simp] theorem Outputs.withDelivered_txFrame : (o.withDelivered d).txFrame = o.txFrame := by
  cases d <;> rfl
@[simp] theorem Outputs.withDelivered_some_frmDone :
    (o.withDelivered (some f)).frmDone = true := rfl
@[simp] theorem Outputs.withDelivered_some_frmValid :
    (o.withDelivered (some f)).frmValid = (decodeFrame f).valid := rfl
@[simp] theorem Outputs.withDelivered_some_frmErr :
    (o.withDelivered (some f)).frmErr = (decodeFrame f).err := rfl
@[simp] theorem Outputs.withDelivered_some_frmIdx :
    (o.withDelivered (some f)).frmIdx = (decodeFrame f).idx := rfl
@[simp] theorem Outputs.withDelivered_some_frmPayload :
    (o.withDelivered (some f)).frmPayload = (decodeFrame f).payload := rfl

@[simp] theorem Outputs.withEncoded_frmDone : (o.withEncoded oe).frmDone = o.frmDone := by
  cases oe <;> rfl
@[simp] theorem Outputs.withEncoded_frmValid : (o.withEncoded oe).frmValid = o.frmValid := by
  cases oe <;> rfl
@[simp] theorem Outputs.withEncoded_frmErr : (o.withEncoded oe).frmErr = o.frmErr := by
  cases oe <;> rfl
@[simp] theorem Outputs.withEncoded_frmIdx : (o.withEncoded oe).frmIdx = o.frmIdx := by
  cases oe <;> rfl
@[simp] theorem Outputs.withEncoded_frmPayload :
    (o.withEncoded oe).frmPayload = o.frmPayload := by cases oe <;> rfl
@[simp] theorem Outputs.withEncoded_some_txValid : (o.withEncoded (some e)).txValid = true := rfl
@[simp] theorem Outputs.withEncoded_some_txFrame :
    (o.withEncoded (some e)).txFrame = (encodeFrame e.idx e.w e.p).toWord := rfl

@[simp] theorem Outputs.zero_frmDone : Outputs.zero.frmDone = false := rfl
@[simp] theorem Outputs.zero_frmValid : Outputs.zero.frmValid = false := rfl
@[simp] theorem Outputs.zero_frmErr : Outputs.zero.frmErr = 0#3 := rfl
@[simp] theorem Outputs.zero_frmIdx : Outputs.zero.frmIdx = 0#7 := rfl
@[simp] theorem Outputs.zero_frmPayload : Outputs.zero.frmPayload = 0#16 := rfl
@[simp] theorem Outputs.zero_txValid : Outputs.zero.txValid = false := rfl
@[simp] theorem Outputs.zero_txFrame : Outputs.zero.txFrame = 0#40 := rfl

/-! ### The composed updates -/

@[simp] theorem State.transmit_buf : (s.transmit e).buf = s.buf := rfl
@[simp] theorem State.transmit_cnt : (s.transmit e).cnt = s.cnt := rfl
@[simp] theorem State.transmit_pending : (s.transmit e).pending = s.pending := rfl
@[simp] theorem State.transmit_out :
    (s.transmit e).out = Outputs.zero.withEncoded (some e) := rfl
@[simp] theorem State.transmit_ret : (s.transmit e).ret = .nothing := rfl

@[simp] theorem State.receive_buf : (s.receive f).buf = (s.acceptFrame f).1.buf := rfl
@[simp] theorem State.receive_cnt : (s.receive f).cnt = (s.acceptFrame f).1.cnt := rfl
@[simp] theorem State.receive_pending : (s.receive f).pending = (s.acceptFrame f).1.pending := rfl
@[simp] theorem State.receive_out :
    (s.receive f).out = Outputs.zero.withDelivered (s.acceptFrame f).2 := rfl
@[simp] theorem State.receive_ret : (s.receive f).ret = .nothing := rfl

end Sys2Proof.Machine
end

