-- ==== Sys2Proof/Laws/Framer.lean ====
section
/-!
SUPPORT. Framer: everything one received byte can do (41_framer.md R91 to R95), and from it what the
five bytes of a frame do.
-/

namespace Sys2Proof.Machine

open Sys2Proof

/-- The marker restarts accumulation from every state (R91, R93). -/
theorem acceptByte_marker (s : State) :
    s.acceptByte 0x3A#8 = ({ s with buf := { s.buf with start := 0x3A#8 }, cnt := 1 }, none) := rfl

/-- A byte that is not the marker is stored at the current position and counted (R92). -/
theorem acceptByte_store (s : State) {b : Byte} (hb : b ≠ 0x3A#8) (hc : s.cnt.val < 4) :
    s.acceptByte b = ({ s with buf := s.buf.put s.cnt b, cnt := s.cnt + 1 }, none) := by
  have hi : storeIndex b s.cnt = s.cnt := if_neg hb
  simp only [State.acceptByte, hi, Config.frameLen]
  rw [if_neg (by omega)]
  rfl

/-- The fifth byte completes a candidate frame, and the framer is cleared (R94, R95). -/
theorem acceptByte_complete (s : State) {b : Byte} (hb : b ≠ 0x3A#8) (hc : s.cnt = 4) :
    s.acceptByte b = (s.clearFramer, some { s.buf with csum := b }) := by
  have hi : storeIndex b s.cnt = 4 := (if_neg hb).trans hc
  simp only [State.acceptByte, hi, Config.frameLen]
  rfl

/-- Everything one received byte can do. -/
theorem acceptByte_cases (s : State) (b : Byte) :
    (b = 0x3A#8 ∧
      s.acceptByte b = ({ s with buf := { s.buf with start := 0x3A#8 }, cnt := 1 }, none)) ∨
    (b ≠ 0x3A#8 ∧ s.cnt.val < 4 ∧
      s.acceptByte b = ({ s with buf := s.buf.put s.cnt b, cnt := s.cnt + 1 }, none)) ∨
    (b ≠ 0x3A#8 ∧ s.cnt = 4 ∧
      s.acceptByte b = (s.clearFramer, some { s.buf with csum := b })) := by
  by_cases hb : b = 0x3A#8
  · exact .inl ⟨hb, hb ▸ acceptByte_marker s⟩
  · by_cases hc : s.cnt.val < 4
    · exact .inr (.inl ⟨hb, hc, acceptByte_store s hb hc⟩)
    · have hc4 : s.cnt = 4 := Fin.ext (by have := s.cnt.isLt; omega)
      exact .inr (.inr ⟨hb, hc4, acceptByte_complete s hb hc4⟩)

@[simp] theorem acceptByte_pending (s : State) (b : Byte) :
    (s.acceptByte b).1.pending = s.pending := by
  obtain ⟨-, h⟩ | ⟨-, -, h⟩ | ⟨-, -, h⟩ := acceptByte_cases s b <;> simp [h]

/-- A byte does not read the output record or what was returned before it. -/
theorem acceptByte_withHeld (s : State) (b : Byte) (o : Outputs) (r : Returned)
    (l : List Stimulus) :
    ({ s with pending := l, out := o, ret := r } : State).acceptByte b
      = ({ (s.acceptByte b).1 with pending := l, out := o, ret := r }, (s.acceptByte b).2) := by
  obtain ⟨hb, h⟩ | ⟨hb, hc, h⟩ | ⟨hb, hc, h⟩ := acceptByte_cases s b
  · rw [h, hb]; rfl
  · rw [h]; exact acceptByte_store _ hb hc
  · rw [h]; exact acceptByte_complete _ hb hc

/-- A byte completes a candidate frame exactly when it is the fifth and is not the marker. -/
theorem acceptByte_delivers (s : State) (b : Byte) (f : Frame) :
    (s.acceptByte b).2 = some f ↔ b ≠ 0x3A#8 ∧ s.cnt = 4 ∧ f = { s.buf with csum := b } := by
  obtain ⟨hb, h⟩ | ⟨hb, hc, h⟩ | ⟨hb, hc, h⟩ := acceptByte_cases s b <;> rw [h]
  · simp [hb]
  · simp only [reduceCtorEq, false_iff, not_and]
    intro _ h4; rw [h4] at hc; exact absurd hc (by decide)
  · simp only [Option.some.injEq]
    exact ⟨fun e => ⟨hb, hc, e.symm⟩, fun e => e.2.2.symm⟩

/-- 0x3A is only ever stored at position 0 (R22). -/
theorem acceptByte_tailFree (s : State) (b : Byte) (h : s.buf.TailFree) :
    (s.acceptByte b).1.buf.TailFree := by
  obtain ⟨h1, h2, h3, h4⟩ := h
  obtain ⟨hb, e⟩ | ⟨hb, hc, e⟩ | ⟨hb, hc, e⟩ := acceptByte_cases s b <;> rw [e]
  · exact ⟨h1, h2, h3, h4⟩
  · generalize s.cnt = c
    fin_cases c
    · exact ⟨h1, h2, h3, h4⟩
    · exact ⟨hb, h2, h3, h4⟩
    · exact ⟨h1, hb, h3, h4⟩
    · exact ⟨h1, h2, hb, h4⟩
    · exact ⟨h1, h2, h3, hb⟩
  · exact (by decide : Frame.zero.TailFree)

/-! ### The five bytes of a frame -/

/-- A frame that begins with the marker and has it nowhere else is delivered whole, from every state,
and leaves the framer cleared (R102). -/
theorem acceptFrame_delivers (s : State) (f : Frame) (hs : f.start = 0x3A#8) (hf : f.TailFree) :
    s.acceptFrame f = (s.clearFramer, some f) := by
  obtain ⟨h1, h2, h3, h4⟩ := hf
  unfold State.acceptFrame
  dsimp only
  rw [hs, acceptByte_marker]
  rw [acceptByte_store _ h1 (by decide : (1 : Fin 5).val < 4)]
  dsimp only
  rw [acceptByte_store _ h2 (by decide : (2 : Fin 5).val < 4)]
  dsimp only
  rw [acceptByte_store _ h3 (by decide : (3 : Fin 5).val < 4)]
  dsimp only
  rw [acceptByte_complete _ h4 rfl]
  cases f
  simp only [Frame.put, State.clearFramer] at hs ⊢
  subst hs
  rfl

/-- How far past `n` the count of a framer at most `n` can get with one byte. -/
theorem acceptByte_cnt_le (s : State) (b : Byte) (n : Nat) (h : s.cnt.val ≤ n) (hn : n < 4) :
    (s.acceptByte b).2 = none ∧ (s.acceptByte b).1.cnt.val ≤ n + 1 := by
  obtain ⟨hb, e⟩ | ⟨hb, hc, e⟩ | ⟨hb, hc, e⟩ := acceptByte_cases s b
  · rw [e]; exact ⟨rfl, by simp⟩
  · rw [e]; refine ⟨rfl, ?_⟩
    have : (s.cnt + 1).val = s.cnt.val + 1 := by
      rw [Fin.val_add]; exact Nat.mod_eq_of_lt (by simp; omega)
    simpa [this] using h
  · rw [hc] at h; exact absurd h (by simp; omega)

/-- The first four bytes of a frame that begins with the marker deliver nothing, from every state. -/
theorem acceptFrame_silent (s : State) (b1 b2 b3 : Byte) :
    let s1 := (s.acceptByte 0x3A#8).1
    let s2 := (s1.acceptByte b1).1
    let s3 := (s2.acceptByte b2).1
    (s.acceptByte 0x3A#8).2 = none ∧ (s1.acceptByte b1).2 = none ∧
      (s2.acceptByte b2).2 = none ∧ (s3.acceptByte b3).2 = none := by
  have h1 : ((s.acceptByte 0x3A#8).1).cnt.val ≤ 1 := by rw [acceptByte_marker]; exact le_refl 1
  have h2 := acceptByte_cnt_le _ b1 1 h1 (by decide)
  have h3 := acceptByte_cnt_le _ b2 2 h2.2 (by decide)
  have h4 := acceptByte_cnt_le _ b3 3 h3.2 (by decide)
  exact ⟨by rw [acceptByte_marker], h2.1, h3.1, h4.1⟩

/-! ### Byte streams -/

@[simp] theorem feed_nil (s : State) : s.feed [] = (s, []) := rfl

@[simp] theorem feed_cons (s : State) (b : Byte) (bs : List Byte) :
    s.feed (b :: bs) = (((s.acceptByte b).1.feed bs).1,
      (s.acceptByte b).2.toList ++ ((s.acceptByte b).1.feed bs).2) := rfl

/-- A stream after another goes on from where the first left the framer. -/
theorem feed_append (s : State) (as bs : List Byte) :
    s.feed (as ++ bs) =
      (((s.feed as).1.feed bs).1, (s.feed as).2 ++ ((s.feed as).1.feed bs).2) := by
  induction as generalizing s with
  | nil => simp
  | cons a as ih => simp [ih]

/-! ### Decoding -/

theorem decodeFrame_valid_iff (f : Frame) :
    (decodeFrame f).valid = true ↔
      f.start = Config.startMarker ∧ f.dir = true ∧ f.checksum = f.csum := by
  simp [decodeFrame, frameValid, startWrong, dirWrong, crcWrong, Config.dirCheck, and_assoc]

/-- Each failed check sets its own bit and no other (R168). -/
theorem frameErr_eq (f : Frame) :
    frameErr f = BitVec.ofBool (crcWrong f) ++ BitVec.ofBool (dirWrong f)
      ++ BitVec.ofBool (startWrong f) := by
  unfold frameErr
  generalize crcWrong f = a
  generalize dirWrong f = b
  generalize startWrong f = c
  revert a b c
  decide

/-- A frame is valid exactly when no error flag is set (R113). -/
theorem decodeFrame_valid_iff_err (f : Frame) :
    (decodeFrame f).valid = true ↔ (decodeFrame f).err = 0#3 := by
  have h1 : (decodeFrame f).valid = !(startWrong f || dirWrong f || crcWrong f) := rfl
  have h2 : (decodeFrame f).err = frameErr f := rfl
  rw [h1, h2, frameErr_eq]
  generalize crcWrong f = a
  generalize dirWrong f = b
  generalize startWrong f = c
  revert a b c
  decide

end Sys2Proof.Machine
end

