-- ==== Sys2Proof/Laws/Exec.lean ====
section
/-!
SUPPORT. Exec: everything an instruction can do, said once, and everything a step can do.
-/

namespace Sys2Proof.Machine

open Sys2Proof

/-- Everything an instruction can do: clear, nothing, one byte with or without an encoded frame, an
encoded frame alone, a returned result, or a received frame that begins with the marker. -/
theorem exec_cases (i : Instr) (s : State) :
    (i = .reset ∧ exec i s = .next (s.clearFramer.withOutputs Outputs.zero)) ∨
    (i = .idle ∧ exec i s = .next (s.withOutputs Outputs.zero)) ∨
    (∃ b enc, i = .rxbyte b enc ∧ exec i s = .next ((s.acceptByte b).1.withOutputs
      ((Outputs.zero.withDelivered (s.acceptByte b).2).withEncoded enc))) ∨
    (∃ e, exec i s = .next (s.transmit e)) ∨
    (∃ r, exec i s = .next (s.withReturned r)) ∨
    (∃ f : Frame, f.start = 0x3A#8 ∧ exec i s = .next (s.receive f)) := by
  cases i with
  | reset => exact .inl ⟨rfl, rfl⟩
  | idle => exact .inr (.inl ⟨rfl, rfl⟩)
  | rxbyte b enc => exact .inr (.inr (.inl ⟨b, enc, rfl, rfl⟩))
  | encode idx w p => exact .inr (.inr (.inr (.inl ⟨_, rfl⟩)))
  | decode f => exact .inr (.inr (.inr (.inr (.inl ⟨_, rfl⟩))))
  | crc8 b1 b2 b3 => exact .inr (.inr (.inr (.inr (.inl ⟨_, rfl⟩))))
  | frameRd dir idx p ck =>
    cases dir with
    | sent => exact .inr (.inr (.inr (.inl ⟨_, rfl⟩)))
    | received => exact .inr (.inr (.inr (.inr (.inr ⟨_, rfl, rfl⟩))))
  | frameWr dir idx p ck =>
    cases dir with
    | sent => exact .inr (.inr (.inr (.inl ⟨_, rfl⟩)))
    | received => exact .inr (.inr (.inr (.inr (.inr ⟨_, rfl, rfl⟩))))
  | request _ | set _ _ | reqFwver | reqRain | reqSensor | reqOptics | setCalib | setCadence =>
    exact .inr (.inr (.inr (.inl ⟨_, rfl⟩)))
  | rspFwver _ _ | rspRain _ _ | rspSensor _ _ | rspOptics _ _ | rspRate _ _ | rspRsvd5 _ _
  | rspRsvd6 _ _ | rspRsvd7 _ _ | rspUnknown _ _ _ =>
    exact .inr (.inr (.inr (.inr (.inr ⟨_, rfl, rfl⟩))))

@[simp] theorem acceptFrame_pending (s : State) (f : Frame) :
    (s.acceptFrame f).1.pending = s.pending := by simp [State.acceptFrame]

/-- An `RXBYTE`, with the `ENCODE` of the same step if there is one. -/
theorem exec_rxbyte (b : Byte) (enc : Option EncodeOperands) (s : State) :
    exec (.rxbyte b enc) s = .next ((s.acceptByte b).1.withOutputs
      ((Outputs.zero.withDelivered (s.acceptByte b).2).withEncoded enc)) := rfl

/-- No instruction touches what is pending. -/
theorem exec_pending {i : Instr} {s t : State} (h : exec i s = .next t) : t.pending = s.pending := by
  obtain ⟨-, e⟩ | ⟨-, e⟩ | ⟨b, enc, -, e⟩ | ⟨x, e⟩ | ⟨r, e⟩ | ⟨f, -, e⟩ := exec_cases i s <;>
    (rw [e] at h; cases h; simp)

/-- Every instruction has a next state in every state (R195). -/
theorem exec_total (i : Instr) (s : State) : ∃ t, exec i s = .next t := by
  obtain ⟨-, e⟩ | ⟨-, e⟩ | ⟨b, enc, -, e⟩ | ⟨x, e⟩ | ⟨r, e⟩ | ⟨f, -, e⟩ := exec_cases i s <;>
    exact ⟨_, e⟩

theorem step_nil {s : State} (h : s.pending = []) : step s = exec .idle s := by
  simp [step, h]

theorem step_ok {s : State} {x : Stimulus} {rest : List Stimulus} {i : Instr}
    (h : s.pending = x :: rest) (hd : decode x = .ok i) :
    step s = exec i { s with pending := rest } := by
  simp [step, h, hd]

theorem step_error {s : State} {x : Stimulus} {rest : List Stimulus} {e : DecodeError}
    (h : s.pending = x :: rest) (hd : decode x = .error e) :
    step s = .refused (.badStimulus e) := by
  simp [step, h, hd]

/-- Everything a step that has a next state can do: it is one instruction on the same framer. -/
theorem step_cases {s t : State} (h : step s = .next t) :
    ∃ i l, exec i { s with pending := l } = .next t := by
  cases hp : s.pending with
  | nil =>
    rw [step_nil hp] at h
    exact ⟨.idle, s.pending, h⟩
  | cons x rest =>
    cases hd : decode x with
    | ok i => rw [step_ok hp hd] at h; exact ⟨i, rest, h⟩
    | error e => rw [step_error hp hd] at h; cases h

/-- A run of `k + 1` steps whose first step has a next state is a run of `k` steps from there. -/
theorem run_succ_next {M : Host.Core} {k : Nat} {s t : M.State} (h : M.step s = .next t) :
    M.run (k + 1) s = M.run k t := by
  simp [Host.Core.run, h]

end Sys2Proof.Machine
end

