-- ==== Sys2Proof/Laws/PerInstr.lean ====
section
/-!
SUPPORT. PerInstr: the family EncodeMatchesRow. The words of every instruction match its row of
spec/opcode_table.json under the row's mask (30_encoding.md R60).
-/

namespace Sys2Proof.Laws.EncodeMatchesRow

open Sys2Proof

/-- The mask and the match of each row, from the table's `mask` and `match`, or from its `encoding`
where the row has only that. -/
def row (i : Instr) : FrameWord × FrameWord :=
  match i with
  | .reset => (0x4#40, 0x4#40)
  | .idle => (0x7#40, 0x0#40)
  | .rxbyte _ _ => (0x5#40, 0x1#40)
  | .encode _ _ _ => (0x6#40, 0x2#40)
  | .decode _ => (0x0#40, 0x0#40)
  | .crc8 _ _ _ => (0x0#40, 0x0#40)
  | .frameRd _ _ _ _ => (0xFF01000000#40, 0x3A00000000#40)
  | .frameWr _ _ _ _ => (0xFF01000000#40, 0x3A01000000#40)
  | .request _ => (0xFF01FFFF00#40, 0x3A00000000#40)
  | .set _ _ => (0xFF01000000#40, 0x3A01000000#40)
  | .reqFwver => (0xFFFFFFFFFF#40, 0x3A0000004B#40)
  | .reqRain => (0xFFFFFFFFFF#40, 0x3A020000C7#40)
  | .reqSensor => (0xFFFFFFFFFF#40, 0x3A04000062#40)
  | .reqOptics => (0xFFFFFFFFFF#40, 0x3A060000EE#40)
  | .setCalib => (0xFFFFFFFFFF#40, 0x3A070000A8#40)
  | .setCadence => (0xFFFFFFFFFF#40, 0x3A0B0000D3#40)
  | .rspFwver _ _ => (0xFFFF000000#40, 0x3A01000000#40)
  | .rspRain _ _ => (0xFFFF000000#40, 0x3A03000000#40)
  | .rspSensor _ _ => (0xFFFF000000#40, 0x3A05000000#40)
  | .rspOptics _ _ => (0xFFFF000000#40, 0x3A07000000#40)
  | .rspRate _ _ => (0xFFFF000000#40, 0x3A09000000#40)
  | .rspRsvd5 _ _ => (0xFFFF000000#40, 0x3A0B000000#40)
  | .rspRsvd6 _ _ => (0xFFFF000000#40, 0x3A0D000000#40)
  | .rspRsvd7 _ _ => (0xFFFF000000#40, 0x3A0F000000#40)
  | .rspUnknown _ _ _ => (0xFF01000000#40, 0x3A01000000#40)

/-- The bits of a stimulus as the table numbers them: `sel` for the port rows, the operand or the
frame for the others. -/
def tableBits (x : Stimulus) : FrameWord :=
  match x with
  | .ports p => p.sel.setWidth 40
  | .callCrc8 w => w.setWidth 40
  | .callDecode w => w
  | .pseudo w => w
  | .frame _ w => w
  | .named _ w => w

def Statement (i : Instr) : Prop := tableBits (encode i) &&& (row i).1 = (row i).2

/-- A frame word under a mask, byte by byte. -/
theorem toWord_and (f g : Frame) :
    f.toWord &&& g.toWord
      = Frame.toWord ⟨f.start &&& g.start, f.flags &&& g.flags, f.ph &&& g.ph, f.pl &&& g.pl,
          f.csum &&& g.csum⟩ := by
  unfold Frame.toWord
  rw [BitVec.and_append, BitVec.and_append, BitVec.and_append, BitVec.and_append]

theorem flags_and_write (idx : FuncIndex) (w : Bool) :
    flagsByte idx w &&& 0x01#8 = if w then 0x01#8 else 0x00#8 := by revert idx w; decide

/-- The class mask reads the start marker and the direction bit. -/
theorem make_class (idx : FuncIndex) (w : Bool) (p : Payload) (ck : Byte) :
    (Frame.make idx w p ck).toWord &&& 0xFF01000000#40
      = if w then 0x3A01000000#40 else 0x3A00000000#40 := by
  have h : (0xFF01000000#40 : FrameWord) = Frame.toWord ⟨0xFF#8, 0x01#8, 0#8, 0#8, 0#8⟩ := by decide
  rw [h, toWord_and]
  simp only [Frame.make_start, Frame.make_flags, flags_and_write, BitVec.and_zero]
  cases w <;> decide

/-- The row mask of a response reads the start marker and the whole flags byte. -/
theorem make_response (idx : FuncIndex) (p : Payload) (ck : Byte) :
    (Frame.make idx true p ck).toWord &&& 0xFFFF000000#40
      = Frame.toWord ⟨0x3A#8, flagsByte idx true, 0#8, 0#8, 0#8⟩ := by
  have h : (0xFFFF000000#40 : FrameWord) = Frame.toWord ⟨0xFF#8, 0xFF#8, 0#8, 0#8, 0#8⟩ := by decide
  have a : ∀ b : Byte, b &&& 0xFF#8 = b := by decide
  rw [h, toWord_and]
  simp only [Frame.make_start, Frame.make_flags, BitVec.and_zero, a]
  rfl

theorem reset : Statement .reset := rfl
theorem idle : Statement .idle := rfl
theorem rxbyte (b : Byte) (enc : Option EncodeOperands) : Statement (.rxbyte b enc) := by
  cases enc <;> simp [Statement, tableBits, Sys2Proof.encode, row, PortInputs.sel, PortInputs.quiet]
theorem encode (idx : FuncIndex) (w : Bool) (p : Payload) : Statement (.encode idx w p) := by
  simp [Statement, tableBits, Sys2Proof.encode, row, PortInputs.sel, PortInputs.quiet]
theorem decode (f : Frame) : Statement (.decode f) := by
  simp [Statement, row]
theorem crc8 (b1 b2 b3 : Byte) : Statement (.crc8 b1 b2 b3) := by
  simp [Statement, row]
theorem frameRd (dir : Direction) (idx : FuncIndex) (p : Payload) (ck : Byte) :
    Statement (.frameRd dir idx p ck) := make_class idx false p ck
theorem frameWr (dir : Direction) (idx : FuncIndex) (p : Payload) (ck : Byte) :
    Statement (.frameWr dir idx p ck) := make_class idx true p ck
theorem request (idx : FuncIndex) : Statement (.request idx) := by
  have h : (0xFF01FFFF00#40 : FrameWord) = Frame.toWord ⟨0xFF#8, 0x01#8, 0xFF#8, 0xFF#8, 0#8⟩ := by
    decide
  show (encodeFrame idx false 0#16).toWord &&& 0xFF01FFFF00#40 = 0x3A00000000#40
  rw [h, encodeFrame_eq_make, toWord_and]
  simp only [Frame.make_start, Frame.make_flags, Frame.make_ph, Frame.make_pl, flags_and_write,
    BitVec.and_zero]
  decide
theorem set (idx : FuncIndex) (p : Payload) : Statement (.set idx p) := make_class idx true p _
theorem reqFwver : Statement .reqFwver := rfl
theorem reqRain : Statement .reqRain := rfl
theorem reqSensor : Statement .reqSensor := rfl
theorem reqOptics : Statement .reqOptics := rfl
theorem setCalib : Statement .setCalib := rfl
theorem setCadence : Statement .setCadence := rfl
theorem rspFwver (p : Payload) (ck : Byte) : Statement (.rspFwver p ck) :=
  (make_response 0#7 p ck).trans rfl
theorem rspRain (p : Payload) (ck : Byte) : Statement (.rspRain p ck) :=
  (make_response 1#7 p ck).trans rfl
theorem rspSensor (p : Payload) (ck : Byte) : Statement (.rspSensor p ck) :=
  (make_response 2#7 p ck).trans rfl
theorem rspOptics (p : Payload) (ck : Byte) : Statement (.rspOptics p ck) :=
  (make_response 3#7 p ck).trans rfl
theorem rspRate (p : Payload) (ck : Byte) : Statement (.rspRate p ck) :=
  (make_response 4#7 p ck).trans rfl
theorem rspRsvd5 (p : Payload) (ck : Byte) : Statement (.rspRsvd5 p ck) :=
  (make_response 5#7 p ck).trans rfl
theorem rspRsvd6 (p : Payload) (ck : Byte) : Statement (.rspRsvd6 p ck) :=
  (make_response 6#7 p ck).trans rfl
theorem rspRsvd7 (p : Payload) (ck : Byte) : Statement (.rspRsvd7 p ck) :=
  (make_response 7#7 p ck).trans rfl
theorem rspUnknown (idx : FuncIndex) (p : Payload) (ck : Byte) : Statement (.rspUnknown idx p ck) :=
  make_class idx true p ck

end Sys2Proof.Laws.EncodeMatchesRow
end

