-- ==== Sys2Proof/Tests/Slice0.lean ====
section
/-!
SUPPORT. Slice0: the model's own tests and the witnesses of the obligations' hypotheses. Expected
values come from the spec: 95_test_vectors.md (V-C, V-E, V-D, V-R, P1 to P6), 40_crc8.md R85 and
R86, and words written from 30_encoding.md R51, R53, R58. Every test is about one step.
-/

namespace Sys2Proof.Tests

open Sys2Proof Sys2Proof.Machine Sys2Proof.Claims

/-- A state with the given framer, nothing pending and nothing held. -/
def at_ (cnt : Fin 5) (buf : Frame) : State := { State.reset with buf := buf, cnt := cnt }

/-- The next state meets a check. -/
def nextIs (o : Host.Outcome State Fault Refusal) (check : State → Bool) : Bool :=
  match o with
  | .next t => check t
  | .fault _ => false
  | .refused _ => false

/-- `cnt | buf` as 95_test_vectors.md section 5 writes the state. -/
def framerIs (cnt : Fin 5) (buf : Frame) (t : State) : Bool := t.cnt == cnt && t.buf == buf

/-- The `frm_*` outputs: done, valid, err, idx, payload. -/
def frmIs (done valid : Bool) (err : ErrFlags) (idx : FuncIndex) (p : Payload) (t : State) : Bool :=
  t.out.frmDone == done && t.out.frmValid == valid && t.out.frmErr == err && t.out.frmIdx == idx &&
    t.out.frmPayload == p

/-- The `tx_*` outputs. -/
def txIs (valid : Bool) (w : FrameWord) (t : State) : Bool :=
  t.out.txValid == valid && t.out.txFrame == w

/-! ### WellFormed: an ill-formed term for each check -/

theorem smoke_frameRd_csum : (Instr.frameRd .sent 0#7 0#16 0x00#8).wellFormed = false := by
  decide +kernel
theorem smoke_frameWr_csum : (Instr.frameWr .sent 4#7 200#16 0xA0#8).wellFormed = false := by
  decide +kernel
theorem smoke_frameWr_csum_ok : (Instr.frameWr .sent 4#7 200#16 0xA1#8).wellFormed = true := by
  decide +kernel
theorem smoke_frameWr_received_ok :
    (Instr.frameWr .received 4#7 200#16 0xA0#8).wellFormed = true := by decide
theorem smoke_rspUnknown_idx : (Instr.rspUnknown 7#7 0#16 0#8).wellFormed = false := by decide
theorem smoke_rspUnknown_idx_ok : (Instr.rspUnknown 8#7 0#16 0#8).wellFormed = true := by decide

/-! ### Decode: every constructor by a word written from the spec -/

/-- R53: rst, rx_valid, rx_data, enc_valid, enc_idx, enc_write, enc_payload. -/
theorem test_decode_reset :
    decode (.ports ⟨true, false, 0#8, false, 0#7, false, 0#16⟩) = .ok .reset := by decide
theorem test_decode_reset_overrides :
    decode (.ports ⟨true, true, 0x3A#8, true, 4#7, true, 200#16⟩) = .ok .reset := by decide
theorem test_decode_idle_ignores_data :
    decode (.ports ⟨false, false, 0x3A#8, false, 4#7, true, 200#16⟩) = .ok .idle := by decide
theorem test_decode_rxbyte :
    decode (.ports ⟨false, true, 0x3A#8, false, 4#7, true, 200#16⟩) = .ok (.rxbyte 0x3A#8 none) := by
  decide
theorem test_decode_rxbyte_encode :
    decode (.ports ⟨false, true, 0x0D#8, true, 4#7, true, 200#16⟩)
      = .ok (.rxbyte 0x0D#8 (some ⟨4#7, true, 200#16⟩)) := by decide
theorem test_decode_encode :
    decode (.ports ⟨false, false, 0x0D#8, true, 4#7, true, 200#16⟩) = .ok (.encode 4#7 true 200#16) := by
  decide

/-- R57: 24 bits, `b1` first; 40 bits, byte 0 first. -/
theorem test_decode_crc8 :
    decode (.callCrc8 0b000000010000000000000010#24) = .ok (.crc8 0x01#8 0x00#8 0x02#8) := by decide
theorem test_decode_decode :
    decode (.callDecode 0x3B080102A1#40) = .ok (.decode ⟨0x3B#8, 0x08#8, 0x01#8, 0x02#8, 0xA1#8⟩) := by
  decide

/-- R51, R59: `00111010 iiiiiiiw hhhhhhhh llllllll cccccccc`. -/
theorem test_decode_frameRd :
    decode (.frame .received 0b0011101000001000000000010000001000000011#40)
      = .ok (.frameRd .received 4#7 0x0102#16 0x03#8) := by decide +kernel
theorem test_decode_frameWr :
    decode (.frame .received 0b0011101011111111000000010000001000000011#40)
      = .ok (.frameWr .received 127#7 0x0102#16 0x03#8) := by decide +kernel
theorem test_decode_frame_sent :
    decode (.frame .sent 0x3A0900C8A1#40) = .ok (.frameWr .sent 4#7 200#16 0xA1#8) := by decide +kernel
theorem test_decode_frame_errors :
    decode (.frame .sent 0x3A0900C8A0#40) = .error .checksumMismatch ∧
      decode (.frame .received 0x3B0900C8A1#40) = .error .notStartMarker := by decide +kernel

/-- R66. -/
theorem test_decode_request_set :
    decode (.pseudo 0x3A020000C7#40) = .ok (.request 1#7) ∧
      decode (.pseudo 0x3A8112346E#40) = .ok (.set 64#7 0x1234#16) := by decide +kernel
theorem test_decode_pseudo_errors :
    decode (.pseudo 0x3AFEFFFF6B#40) = .error .requestWithPayload ∧
      decode (.pseudo 0x3A020000C8#40) = .error .checksumMismatch ∧
      decode (.pseudo 0x00020000C7#40) = .error .notStartMarker := by decide +kernel

/-- R58, transmit: 95_test_vectors.md section 4. -/
theorem test_decode_named_sent :
    decode (.named .sent 0x3A0000004B#40) = .ok .reqFwver ∧
      decode (.named .sent 0x3A020000C7#40) = .ok .reqRain ∧
      decode (.named .sent 0x3A04000062#40) = .ok .reqSensor ∧
      decode (.named .sent 0x3A060000EE#40) = .ok .reqOptics ∧
      decode (.named .sent 0x3A070000A8#40) = .ok .setCalib ∧
      decode (.named .sent 0x3A0B0000D3#40) = .ok .setCadence ∧
      decode (.named .sent 0x3A0900C8A1#40) = .error .notNamedFrame := by decide +kernel

/-- R58, receive: the flags byte of each response index. -/
theorem test_decode_named_received :
    decode (.named .received 0x3A01000000#40) = .ok (.rspFwver 0#16 0#8) ∧
      decode (.named .received 0x3A03006402#40) = .ok (.rspRain 100#16 2#8) ∧
      decode (.named .received 0x3A05000024#40) = .ok (.rspSensor 0#16 0x24#8) ∧
      decode (.named .received 0x3A070000A8#40) = .ok (.rspOptics 0#16 0xA8#8) ∧
      decode (.named .received 0x3A0900C8A1#40) = .ok (.rspRate 200#16 0xA1#8) ∧
      decode (.named .received 0x3A0B000000#40) = .ok (.rspRsvd5 0#16 0#8) ∧
      decode (.named .received 0x3A0D000000#40) = .ok (.rspRsvd6 0#16 0#8) ∧
      decode (.named .received 0x3A0F000000#40) = .ok (.rspRsvd7 0#16 0#8) ∧
      decode (.named .received 0x3A11000000#40) = .ok (.rspUnknown 8#7 0#16 0#8) ∧
      decode (.named .received 0x3AFFFFFF2D#40) = .ok (.rspUnknown 127#7 0xFFFF#16 0x2D#8) ∧
      decode (.named .received 0x3A08000000#40) = .error .notResponse := by decide +kernel

/-- The opcode table's own `match` words. -/
theorem test_table_words :
    decodeTableWord 8 0x4 = some .reset ∧ decodeTableWord 8 0x0 = some .idle ∧
      decodeTableWord 8 0x1 = some (.rxbyte 0#8 none) ∧
      decodeTableWord 8 0x2 = some (.encode 0#7 false 0#16) ∧
      decodeTableWord 24 0x010002 = some (.crc8 0x01#8 0x00#8 0x02#8) ∧
      decodeTableWord 40 0x0000000001 = some (.decode ⟨0#8, 0#8, 0#8, 0#8, 1#8⟩) ∧
      decodeTableWord 40 0x3A0000004B = some .reqFwver ∧
      decodeTableWord 40 0x3A0B000000 = some (.rspRsvd5 0#16 0#8) ∧
      decodeTableWord 40 0x3A0A0000E2 = some (.frameRd .received 5#7 0#16 0xE2#8) ∧
      decodeTableWord 16 0x0 = none := by decide +kernel

/-! ### CRC8 and DECODE as functions -/

/-- 95_test_vectors.md section 2, V-C1 to V-C15. -/
theorem test_crc8_vectors :
    ([(0x000000#24, 0x4B#8), (0xFFFFFF#24, 0x2D#8), (0x010000#24, 0x0D#8), (0x000100#24, 0xBF#8),
      (0x000001#24, 0x7A#8), (0x800000#24, 0x9E#8), (0x000080#24, 0x31#8), (0x0900C8#24, 0xA1#8),
      (0x0900C9#24, 0x90#8), (0x0800C8#24, 0xE7#8), (0x0901C8#24, 0x55#8), (0x09008E#24, 0x3A#8),
      (0x3A0000#24, 0x48#8), (0x811234#24, 0x6E#8), (0x010001#24, 0x3C#8), (0x010100#24, 0xF9#8)].all
      fun (w, c) => crc8 (w.extractLsb' 16 8) (w.extractLsb' 8 8) (w.extractLsb' 0 8) == c) = true := by
  decide +kernel

/-- V-C9, V-C10: the loop of R80 over other lengths. -/
theorem test_crc_other_lengths :
    crcOver [0x31#8, 0x32#8, 0x33#8, 0x34#8, 0x35#8, 0x36#8, 0x37#8, 0x38#8, 0x39#8] = 0xF7#8 ∧
      crcOver [0xBE#8, 0xEF#8] = 0x92#8 := by decide +kernel

/-- V-D1 to V-D14: valid, err, idx, payload. -/
theorem test_decode_vectors :
    ([(0x3A0900C8A1#40, true, 0b000#3, 4#7, 200#16), (0x3A0800C8E7#40, false, 0b010#3, 0#7, 0#16),
      (0x3A0900C8A0#40, false, 0b100#3, 0#7, 0#16), (0x3A010000FF#40, false, 0b100#3, 0#7, 0#16),
      (0x3B0900C8A1#40, false, 0b001#3, 0#7, 0#16), (0x3B0800C8A1#40, false, 0b111#3, 0#7, 0#16),
      (0x3A0800C800#40, false, 0b110#3, 0#7, 0#16), (0x000000004B#40, false, 0b011#3, 0#7, 0#16),
      (0x0000000000#40, false, 0b111#3, 0#7, 0#16), (0x3AFFFFFF2D#40, true, 0b000#3, 127#7, 65535#16),
      (0x3A8112346E#40, true, 0b000#3, 64#7, 4660#16), (0x3A0B0000D3#40, true, 0b000#3, 5#7, 0#16),
      (0x3A09008E3A#40, true, 0b000#3, 4#7, 142#16), (0x3A04000062#40, false, 0b010#3, 0#7, 0#16),
      (0x3A070000A8#40, true, 0b000#3, 3#7, 0#16)].all
      fun (w, v, e, i, p) => decodeFrame (Frame.ofWord w) == ⟨v, e, i, p⟩) = true := by decide +kernel

/-- V-E1 to V-E13. -/
theorem test_encode_vectors :
    ([(0#7, false, 0#16, 0x3A0000004B#40), (0#7, true, 0#16, 0x3A0100000D#40),
      (4#7, true, 200#16, 0x3A0900C8A1#40), (127#7, true, 65535#16, 0x3AFFFFFF2D#40),
      (127#7, false, 65535#16, 0x3AFEFFFF6B#40), (64#7, true, 0x1234#16, 0x3A8112346E#40),
      (64#7, false, 0#16, 0x3A8000009E#40), (63#7, true, 1#16, 0x3A7F0001E4#40),
      (29#7, false, 0#16, 0x3A3A000048#40), (4#7, true, 142#16, 0x3A09008E3A#40),
      (0#7, true, 0x0205#16, 0x3A01020521#40), (3#7, true, 0xABCD#16, 0x3A07ABCD46#40),
      (1#7, true, 3#16, 0x3A030003D2#40)].all
      fun (i, w, p, x) => (encodeFrame i w p).toWord == x) = true := by decide +kernel

/-! ### One step of each instruction -/

/-- R180's worked example. -/
theorem test_reset :
    nextIs (exec .reset (at_ 3 ⟨0x3A#8, 0x09#8, 0#8, 0#8, 0#8⟩)) (framerIs 0 ⟨0#8, 0#8, 0#8, 0#8, 0#8⟩)
      = true := by decide +kernel

/-- V-R8: a partial frame stays through an idle step. -/
theorem test_idle :
    nextIs (exec .idle (at_ 4 ⟨0x3A#8, 0x09#8, 0#8, 0xC8#8, 0#8⟩))
      (framerIs 4 ⟨0x3A#8, 0x09#8, 0#8, 0xC8#8, 0#8⟩) = true := by decide +kernel

/-- P1 step 4: silent resynchronisation, stale bytes kept. -/
theorem test_rxbyte_resync :
    nextIs (exec (.rxbyte 0x3A#8 none) (at_ 3 ⟨0#8, 0xFF#8, 0x7E#8, 0#8, 0#8⟩)) (fun t =>
      framerIs 1 ⟨0x3A#8, 0xFF#8, 0x7E#8, 0#8, 0#8⟩ t && frmIs false false 0#3 0#7 0#16 t) = true := by
  decide +kernel

/-- P3 step 8 with P4 step 1 in the same step: a wrong checksum, and an `ENCODE` beside it. -/
theorem test_rxbyte_complete_with_encode :
    nextIs (exec (.rxbyte 0xA0#8 (some ⟨4#7, true, 200#16⟩))
        (at_ 4 ⟨0x3A#8, 0x09#8, 0#8, 0xC8#8, 0#8⟩)) (fun t =>
      framerIs 0 ⟨0#8, 0#8, 0#8, 0#8, 0#8⟩ t && frmIs true false 0b100#3 0#7 0#16 t &&
        txIs true 0x3A0900C8A1#40 t) = true := by decide +kernel

/-- P6 step 3: `ENCODE` between the bytes of a frame. -/
theorem test_encode :
    nextIs (exec (.encode 1#7 false 0#16) (at_ 2 ⟨0x3A#8, 0x03#8, 0#8, 0#8, 0#8⟩)) (fun t =>
      framerIs 2 ⟨0x3A#8, 0x03#8, 0#8, 0#8, 0#8⟩ t && txIs true 0x3A020000C7#40 t) = true := by
  decide +kernel

/-- R112's worked example. -/
theorem test_exec_decode :
    nextIs (exec (.decode ⟨0x3A#8, 0x09#8, 0#8, 0xC8#8, 0xA1#8⟩) State.reset) (fun t =>
      t.ret == .decode ⟨true, 0b000#3, 4#7, 200#16⟩) = true := by decide +kernel

/-- R80's worked example. -/
theorem test_exec_crc8 :
    nextIs (exec (.crc8 0x01#8 0#8 0#8) State.reset) (fun t => t.ret == .crc8 0x0D#8) = true := by
  decide +kernel

/-- P4: a read request received is rejected by the direction check alone. -/
theorem test_frameRd :
    nextIs (exec (.frameRd .received 2#7 0#16 0x62#8) (at_ 3 ⟨0#8, 0xFF#8, 0x7E#8, 0#8, 0#8⟩))
      (frmIs true false 0b010#3 0#7 0#16) = true := by decide +kernel

/-- P5: a frame whose checksum is 0x3A is never delivered. -/
theorem test_frameWr_marked :
    nextIs (exec (.frameWr .received 4#7 142#16 0x3A#8) State.reset) (fun t =>
      framerIs 1 ⟨0x3A#8, 0x09#8, 0#8, 0x8E#8, 0#8⟩ t && frmIs false false 0#3 0#7 0#16 t) = true := by
  decide +kernel

/-- V-R4: `3A 3A 00 00 48`. -/
theorem test_frameRd_marked_flags :
    nextIs (exec (.frameRd .received 29#7 0#16 0x48#8) State.reset)
      (framerIs 4 ⟨0x3A#8, 0#8, 0#8, 0x48#8, 0#8⟩) = true := by decide +kernel

/-- V-E9: emitted unchanged. -/
theorem test_request : nextIs (exec (.request 29#7) State.reset) (txIs true 0x3A3A000048#40) = true := by
  decide +kernel
/-- V-E12. -/
theorem test_set : nextIs (exec (.set 3#7 0xABCD#16) State.reset) (txIs true 0x3A07ABCD46#40) = true := by
  decide +kernel

/-- 95_test_vectors.md section 4. -/
theorem test_named_sent :
    ([(.reqFwver, 0x3A0000004B#40), (.reqRain, 0x3A020000C7#40), (.reqSensor, 0x3A04000062#40),
      (.reqOptics, 0x3A060000EE#40), (.setCalib, 0x3A070000A8#40), (.setCadence, 0x3A0B0000D3#40)].all
      fun (i, w) => nextIs (exec i State.reset) (txIs true w)) = true := by decide +kernel

/-- Responses of 95_test_vectors.md sections 3 to 5: index and payload delivered. -/
theorem test_responses :
    ([(.rspFwver 0x0102#16 0x9B#8, 0#7, 0x0102#16), (.rspRain 3#16 0xD2#8, 1#7, 3#16),
      (.rspSensor 0#16 0x24#8, 2#7, 0#16), (.rspOptics 0xABCD#16 0x46#8, 3#7, 0xABCD#16),
      (.rspRate 200#16 0xA1#8, 4#7, 200#16), (.rspRsvd5 0#16 0xD3#8, 5#7, 0#16),
      (.rspUnknown 64#7 0x1234#16 0x6E#8, 64#7, 0x1234#16)].all
      fun (i, k, p) => nextIs (exec i (at_ 2 ⟨0x66#8, 0x77#8, 0#8, 0#8, 0#8⟩))
        (frmIs true true 0b000#3 k p)) = true := by decide +kernel

/-- Indices 6 and 7 with a checksum of 0 that is wrong: reported with `E_CRC` alone. -/
theorem test_responses_wrong_csum :
    nextIs (exec (.rspRsvd6 0#16 0#8) State.reset) (frmIs true false 0b100#3 0#7 0#16) = true ∧
      nextIs (exec (.rspRsvd7 0#16 0#8) State.reset) (frmIs true false 0b100#3 0#7 0#16) = true := by
  decide +kernel

/-! ### The step -/

theorem test_step_from_reset_word :
    nextIs (step (State.reset.withFetchWord 8 0x2)) (txIs true 0x3A0000004B#40) = true := by
  decide +kernel
theorem test_step_idle : nextIs (step State.reset) (fun t => t == State.reset) = true := by
  decide +kernel

/-! ### Witnesses: hypotheses of the obligations met together -/

theorem witness_EncodeInjective :
    ∃ t, exec (.encode 4#7 true 200#16) State.reset = .next t ∧ t.out.txFrame = 0x3A0900C8A1#40 :=
  ⟨_, rfl, by decide +kernel⟩

theorem witness_ByteIsStored_first : (0x00#8 : Byte) ≠ 0x3A#8 ∧ (at_ 0 Frame.zero).cnt.val < 4 := by decide
theorem witness_ByteIsStored_last : (0xFF#8 : Byte) ≠ 0x3A#8 ∧ (at_ 3 Frame.zero).cnt.val < 4 := by decide
theorem witness_FifthByte : (0xA1#8 : Byte) ≠ 0x3A#8 ∧ (at_ 4 Frame.zero).cnt = 4 := by decide

/-- One witness for each of the three ways to be invalid, the others not holding. -/
theorem witness_InvalidFrame :
    (let s := at_ 4 ⟨0x3B#8, 0x09#8, 0#8, 0xC8#8, 0#8⟩;
      s.cnt = 4 ∧ s.buf.get 0 ≠ 0x3A#8 ∧ (s.buf.get 1).getLsbD 0 = true ∧
        crc8 (s.buf.get 1) (s.buf.get 2) (s.buf.get 3) = 0xA1#8) ∧
    (let s := at_ 4 ⟨0x3A#8, 0x08#8, 0#8, 0xC8#8, 0#8⟩;
      s.cnt = 4 ∧ s.buf.get 0 = 0x3A#8 ∧ (s.buf.get 1).getLsbD 0 = false) ∧
    (let s := at_ 4 ⟨0x3A#8, 0x09#8, 0#8, 0xC8#8, 0#8⟩;
      s.cnt = 4 ∧ s.buf.get 0 = 0x3A#8 ∧ (s.buf.get 1).getLsbD 0 = true ∧
        0xA0#8 ≠ crc8 (s.buf.get 1) (s.buf.get 2) (s.buf.get 3)) := by decide +kernel

theorem witness_DeliveredFrame :
    let s := at_ 4 ⟨0x3A#8, 0x09#8, 0#8, 0xC8#8, 0#8⟩
    s.buf.TailFree ∧ (s.acceptByte 0xA1#8).2 = some ⟨0x3A#8, 0x09#8, 0#8, 0xC8#8, 0xA1#8⟩ ∧
      (decodeFrame ⟨0x3A#8, 0x09#8, 0#8, 0xC8#8, 0xA1#8⟩).valid = true := by decide +kernel

theorem witness_Receivable_write : Receivable 4#7 true 200#16 0xA1#8 := by
  unfold Receivable; decide
theorem witness_Receivable_read : Receivable 2#7 false 0#16 0x62#8 := by
  unfold Receivable; decide
theorem witness_Responses :
    responseFields (.rspUnknown 8#7 200#16 0xA1#8) = some (8#7, 200#16, 0xA1#8) ∧
      Receivable 8#7 true 200#16 0xA1#8 := ⟨rfl, by unfold Receivable; decide⟩

/-- A marked frame for each of the four positions. -/
theorem witness_MarkedFrame :
    receivedFields (.rspRate 142#16 0x3A#8) = some (4#7, true, 142#16, 0x3A#8) ∧
      ¬ Receivable 4#7 true 142#16 0x3A#8 ∧ ¬ Receivable 4#7 true 58#16 0xA1#8 ∧
      ¬ Receivable 4#7 true 0x3A00#16 0xA1#8 ∧
      receivedFields (.frameRd .received 29#7 0#16 0x48#8) = some (29#7, false, 0#16, 0x48#8) ∧
      ¬ Receivable 29#7 false 0#16 0x48#8 := by
  unfold Receivable; exact ⟨rfl, by decide, by decide, by decide, rfl, by decide⟩

theorem witness_Echo :
    Receivable 3#7 true 0#16 (csumOf 3#7 true 0#16) ∧
      Receivable 2#7 false 0#16 (csumOf 2#7 false 0#16) := by
  unfold Receivable; decide +kernel

theorem witness_Resynchronisation :
    let f : Frame := ⟨0x3A#8, 0x09#8, 0#8, 0xC8#8, 0xA1#8⟩
    f.start = 0x3A#8 ∧ f.TailFree := by decide

theorem witness_GarbagePrefix :
    let f : Frame := ⟨0x3A#8, 0x01#8, 0#8, 0#8, 0x0D#8⟩
    State.reset.Seeking ∧ (∀ b ∈ [0x00#8, 0xFF#8, 0x7E#8], b ≠ 0x3A#8) ∧ f.TailFree ∧
      (decodeFrame f).valid = true := by decide +kernel

theorem witness_FiveNonMarkerBytes :
    let f : Frame := ⟨0x10#8, 0x01#8, 0#8, 0#8, 0x0D#8⟩
    State.reset.Seeking ∧ f.start ≠ 0x3A#8 ∧ f.TailFree := by decide

theorem witness_PendingBytes :
    let s := { State.reset with pending := [rxStimulus 0x3A#8, rxStimulus 0x01#8, .callCrc8 0#24] }
    s.pending = [0x3A#8, 0x01#8].map rxStimulus ++ [.callCrc8 0#24] := by decide

/-- Its clause on the outputs: a first byte that completes a frame, a last byte that completes none. -/
theorem witness_PendingBytes_outputs :
    let s := { at_ 4 ⟨0x3A#8, 0x09#8, 0#8, 0xC8#8, 0#8⟩ with
      pending := [rxStimulus 0xA1#8, rxStimulus 0x3A#8] }
    s.pending = [0xA1#8, 0x3A#8].map rxStimulus ++ [] ∧
      (s.acceptByte 0xA1#8).2 = some ⟨0x3A#8, 0x09#8, 0#8, 0xC8#8, 0xA1#8⟩ ∧
      nextIs (step s) (frmIs true true 0b000#3 4#7 200#16) = true ∧
      (s.feed [0xA1#8, 0x3A#8]).2 = [⟨0x3A#8, 0x09#8, 0#8, 0xC8#8, 0xA1#8⟩] := by decide +kernel

theorem witness_ResetOverrides :
    let p : PortInputs := ⟨true, true, 0xA1#8, true, 4#7, true, 200#16⟩
    let s := { at_ 4 ⟨0x3A#8, 0x09#8, 0#8, 0xC8#8, 0#8⟩ with pending := [.ports p, .ports p] }
    p.rst = true ∧ s.pending = .ports p :: .ports p :: [] := by decide

theorem witness_OnlyRxbyteAndReset :
    performsRxbyte (.encode 4#7 true 200#16) = false ∧ Instr.encode 4#7 true 200#16 ≠ .reset := by decide

theorem witness_OutputsAreZero :
    (∃ t, exec .idle State.reset = .next t ∧ performsRxbyte .idle = false ∧
      performsEncode .idle = false) ∧
    (∃ t, exec (.rxbyte 0x3A#8 none) State.reset = .next t ∧
      performsRxbyte (.rxbyte 0x3A#8 none) = true ∧ t.out.frmDone = false) :=
  ⟨⟨_, rfl, rfl, rfl⟩, ⟨_, rfl, rfl, rfl⟩⟩

theorem witness_EveryPortPattern :
    let p : PortInputs := ⟨true, true, 0x3A#8, true, 4#7, true, 200#16⟩
    let s : State := { State.reset with pending := [.ports p] }
    s.pending = .ports p :: [] := by decide

theorem witness_Select :
    (⟨true, true, 0#8, true, 0#7, false, 0#16⟩ : PortInputs).sel.getLsbD 2 = true ∧
      (⟨false, false, 0#8, false, 0#7, false, 0#16⟩ : PortInputs).sel = 0b000#3 ∧
      (⟨false, true, 0#8, false, 0#7, false, 0#16⟩ : PortInputs).sel = 0b001#3 ∧
      (⟨false, false, 0#8, true, 0#7, false, 0#16⟩ : PortInputs).sel = 0b010#3 ∧
      (⟨false, true, 0#8, true, 0#7, false, 0#16⟩ : PortInputs).sel = 0b011#3 := by decide

theorem witness_StepRuns :
    let s : State := { State.reset with pending := [.named .received 0x3A0900C8A1#40] }
    s.pending = .named .received 0x3A0900C8A1#40 :: [] ∧
      decode (.named .received 0x3A0900C8A1#40) = .ok (.rspRate 200#16 0xA1#8) := by decide +kernel

theorem witness_StepIdlesOrRefuses :
    State.reset.pending = [] ∧
      decode (.pseudo 0x3A020000C8#40) = .error .checksumMismatch := by decide +kernel

theorem witness_FetchedWord : decodeTableWord 8 0x4 = some .reset := by decide

/-- An accumulating state that meets the invariant, and a next state of it. -/
theorem witness_StepKeepsInvariant :
    let s := { at_ 2 ⟨0x3A#8, 0x09#8, 0#8, 0#8, 0#8⟩ with pending := [rxStimulus 0x3A#8] }
    s.Inv ∧ ∃ t, step s = .next t :=
  ⟨⟨by decide, ⟨fun _ => ⟨rfl, rfl⟩, fun h => (by cases h), fun _ => ⟨rfl, rfl⟩,
      fun h => (by cases h), fun _ => rfl, fun h => (by cases h)⟩, fun h => (by cases h)⟩, ⟨_, rfl⟩⟩

theorem witness_DecodeOfEncode :
    (Instr.frameRd .sent 127#7 65535#16 0x6B#8).wellFormed = true ∧
      (Instr.rspUnknown 127#7 65535#16 0x2D#8).wellFormed = true := by decide +kernel

theorem witness_EncodeOfDecode :
    decode (.callCrc8 0x0900C8#24) = .ok (.crc8 0x09#8 0#8 0xC8#8) ∧
      decode (.frame .sent 0x3AFEFFFF6B#40) = .ok (.frameRd .sent 127#7 65535#16 0x6B#8) := by
  decide +kernel

theorem witness_PayloadIsBigEndian :
    (decodeFrame ⟨0x3A#8, 0x81#8, 0x12#8, 0x34#8, 0x6E#8⟩).valid = true := by decide +kernel

end Sys2Proof.Tests
end

/-!
PROOFS. State: which of the events `RXBYTE` and `ENCODE` each instruction performs, and from it when
the outputs are 0 (10_state.md R17); what `RESET` clears (R23).
-/

namespace Sys2Proof

@[simp] theorem Frame.zero_get (j : Fin 5) : Frame.zero.get j = 0x00#8 := by
  revert j; decide

end Sys2Proof

namespace Sys2Proof.Machine

open Sys2Proof Sys2Proof.Claims

/-! ### The outputs that are all 0 -/

@[simp] theorem frmZero_zero : FrmZero Outputs.zero := ⟨rfl, rfl, rfl, rfl, rfl⟩

@[simp] theorem txZero_zero : TxZero Outputs.zero := ⟨rfl, rfl⟩

@[simp] theorem frmZero_withEncoded (o : Outputs) (enc : Option EncodeOperands) :
    FrmZero (o.withEncoded enc) ↔ FrmZero o := by simp [FrmZero]

@[simp] theorem txZero_withDelivered (o : Outputs) (d : Option Frame) :
    TxZero (o.withDelivered d) ↔ TxZero o := by simp [TxZero]

/-- A delivered frame raises `frm_done`, so with `frm_done` 0 nothing was delivered (R94, R17). -/
theorem frmZero_withDelivered_of_not_done {d : Option Frame}
    (h : (Outputs.zero.withDelivered d).frmDone = false) :
    FrmZero (Outputs.zero.withDelivered d) := by
  cases d with
  | none => exact frmZero_zero
  | some f => cases h

/-! ### Instructions by the events they perform -/

@[simp] theorem performsRxbyte_rxbyte (b : Byte) (enc : Option EncodeOperands) :
    performsRxbyte (.rxbyte b enc) = true := rfl

@[simp] theorem performsEncode_rxbyte (b : Byte) (enc : Option EncodeOperands) :
    performsEncode (.rxbyte b enc) = enc.isSome := rfl

/-- What an instruction does, by whether it performs an `RXBYTE` and an `ENCODE`: the reset, a step
that performs neither and writes no state, an `RXBYTE` event, an `ENCODE` alone, a received frame. -/
theorem exec_cases_performs (i : Instr) (s : State) :
    (i = .reset ∧ exec i s = .next (s.clearFramer.withOutputs Outputs.zero)) ∨
    (performsRxbyte i = false ∧ performsEncode i = false ∧
      ∃ r, exec i s = .next (s.withReturned r)) ∨
    (∃ b enc, i = .rxbyte b enc) ∨
    (performsRxbyte i = false ∧ performsEncode i = true ∧ ∃ e, exec i s = .next (s.transmit e)) ∨
    (performsRxbyte i = true ∧ performsEncode i = false ∧
      ∃ f : Frame, f.start = 0x3A#8 ∧ exec i s = .next (s.receive f)) := by
  cases i with
  | reset => exact .inl ⟨rfl, rfl⟩
  | idle | decode _ | crc8 _ _ _ => exact .inr (.inl ⟨rfl, rfl, _, rfl⟩)
  | rxbyte b enc => exact .inr (.inr (.inl ⟨b, enc, rfl⟩))
  | frameRd dir _ _ _ | frameWr dir _ _ _ =>
    cases dir with
    | sent => exact .inr (.inr (.inr (.inl ⟨rfl, rfl, _, rfl⟩)))
    | received => exact .inr (.inr (.inr (.inr ⟨rfl, rfl, _, rfl, rfl⟩)))
  | encode _ _ _ | request _ | set _ _ | reqFwver | reqRain | reqSensor | reqOptics | setCalib
  | setCadence => exact .inr (.inr (.inr (.inl ⟨rfl, rfl, _, rfl⟩)))
  | rspFwver _ _ | rspRain _ _ | rspSensor _ _ | rspOptics _ _ | rspRate _ _ | rspRsvd5 _ _
  | rspRsvd6 _ _ | rspRsvd7 _ _ | rspUnknown _ _ _ =>
    exact .inr (.inr (.inr (.inr ⟨rfl, rfl, _, rfl, rfl⟩)))

/-- A step's outputs are those of the frame it delivered and of the operands it encoded, on a record
that is otherwise all 0; only an `RXBYTE` delivers, and only an `ENCODE` encodes (R16, R17). -/
theorem exec_out_eq {i : Instr} {s t : State} (h : exec i s = .next t) :
    ∃ d enc, t.out = (Outputs.zero.withDelivered d).withEncoded enc ∧
      (performsRxbyte i = false → d = none) ∧ (performsEncode i = false → enc = none) := by
  obtain ⟨-, e⟩ | ⟨-, -, r, e⟩ | ⟨b, enc, rfl⟩ | ⟨-, henc, x, e⟩ | ⟨hrx, -, f, -, e⟩ :=
    exec_cases_performs i s
  · rw [e] at h; cases h
    exact ⟨none, none, rfl, fun _ => rfl, fun _ => rfl⟩
  · rw [e] at h; cases h
    exact ⟨none, none, rfl, fun _ => rfl, fun _ => rfl⟩
  · rw [exec_rxbyte] at h; cases h
    exact ⟨_, enc, rfl, by simp, by simp⟩
  · rw [e] at h; cases h
    exact ⟨none, some x, rfl, fun _ => rfl, by simp [henc]⟩
  · rw [e] at h; cases h
    exact ⟨_, none, rfl, by simp [hrx], fun _ => rfl⟩

/-! ### The obligations -/

/-- Settles O34: each group of outputs is 0 on the empty record, and only its own producer writes
it (`exec_out_eq`). -/
theorem outputsAreZeroUnlessProduced : Obligations.OutputsAreZeroUnlessProduced := by
  intro i s t h
  obtain ⟨d, enc, hout, hd, henc⟩ := exec_out_eq h
  rw [hout]
  refine ⟨fun hrx => ?_, fun _ hdone => ?_, fun hen => ?_⟩
  · simp [hd hrx]
  · rw [Outputs.withEncoded_frmDone] at hdone
    simpa using frmZero_withDelivered_of_not_done hdone
  · simp [henc hen]

/-- Settles O30: the step of `RESET` ends in the cleared framer. -/
theorem resetClearsAllState : Obligations.ResetClearsAllState := fun s =>
  ⟨s.clearFramer.withOutputs Outputs.zero, rfl, by simp⟩

end Sys2Proof.Machine

/-!
PROOFS. Memory: the byte order of the payload in the frame (20_memory.md R31; 42_codec.md R115).
-/

namespace Sys2Proof

/-! ### The payload and its two bytes as numbers -/

theorem payloadJoin_toNat (b2 b3 : Byte) :
    (payloadJoin b2 b3).toNat = b2.toNat * 256 + b3.toNat := by
  rw [payloadJoin_eq, BitVec.toNat_append, ← Nat.shiftLeft_add_eq_or_of_lt b3.isLt,
    Nat.shiftLeft_eq]

theorem payloadSplit_fst_toNat (p : Payload) : (payloadSplit p).1.toNat = p.toNat / 256 := by
  rw [payloadSplit_eq, BitVec.extractLsb'_toNat, Nat.shiftRight_eq_div_pow]
  have := p.isLt
  omega

theorem payloadSplit_snd_toNat (p : Payload) : (payloadSplit p).2.toNat = p.toNat % 256 := by
  rw [payloadSplit_eq, BitVec.extractLsb'_toNat, Nat.shiftRight_zero]

end Sys2Proof

namespace Sys2Proof.Machine

open Sys2Proof Sys2Proof.Claims

/-! ### What a valid frame decodes to, and what `ENCODE` sends -/

/-- A valid frame's payload is not masked to 0 (R116; D8). -/
theorem decodeFrame_payload_of_valid {f : Frame} (h : (decodeFrame f).valid = true) :
    (decodeFrame f).payload = f.payload :=
  if_pos h

/-- The five bytes of `tx_frame` after an `ENCODE` step (R110). -/
theorem ofWord_transmit_txFrame (s : State) (e : EncodeOperands) :
    Frame.ofWord (s.transmit e).out.txFrame = encodeFrame e.idx e.w e.p := by
  rw [State.transmit_out, Outputs.withEncoded_some_txFrame, Frame.ofWord_toWord]

/-! ### The obligation -/

/-- Settles O8: decoding joins bytes 2 and 3 (`payloadJoin_toNat`), and `ENCODE` writes there the
quotient and the remainder of the payload by 256 (`payloadSplit_fst_toNat`,
`payloadSplit_snd_toNat`). -/
theorem payloadIsBigEndian : Obligations.PayloadIsBigEndian := by
  constructor
  · intro f hvalid
    rw [decodeFrame_payload_of_valid hvalid]
    exact payloadJoin_toNat f.ph f.pl
  · intro idx w p s
    refine ⟨s.transmit ⟨idx, w, p⟩, rfl, ?_⟩
    rw [ofWord_transmit_txFrame, encodeFrame_eq_make]
    exact ⟨payloadSplit_fst_toNat p, payloadSplit_snd_toNat p⟩

end Sys2Proof.Machine

/-!
PROOFS. Encoding: the frame on `tx_frame` as the 40-bit word of R110, the pseudo-operations
`REQUEST` and `SET` (30_encoding.md R66), and that every port pattern is an instruction (R64).
-/

namespace Sys2Proof

/-- No port pattern is rejected (R53, R64). -/
@[simp] theorem decode_ports (p : PortInputs) : decode (.ports p) = .ok (decodePorts p) := rfl

end Sys2Proof

namespace Sys2Proof.Machine

open Sys2Proof Sys2Proof.Claims

/-! ### The encoded frame as a word -/

/-- The model's flags byte is the one of R110: its direction bit, chosen by an `if`, is `w`
widened to a byte. -/
theorem flagsByte_eq_flagsOf (idx : FuncIndex) (w : Bool) : flagsByte idx w = flagsOf idx w := by
  cases w <;> rfl

/-- The model's frame is the one of R51, field by field. -/
theorem make_eq_frameOf (idx : FuncIndex) (w : Bool) (p : Payload) (ck : Byte) :
    Frame.make idx w p ck = frameOf idx w p ck := by
  rw [Frame.make, flagsByte_eq_flagsOf, payloadSplit_eq]
  rfl

/-- `ENCODE` builds the frame of its operands with their checksum (R56, R110). -/
theorem encodeFrame_eq_frameOf (idx : FuncIndex) (w : Bool) (p : Payload) :
    encodeFrame idx w p = frameOf idx w p (csumOf idx w p) := by
  rw [encodeFrame_eq_make, make_eq_frameOf, flagsByte_eq_flagsOf, payloadSplit_eq]
  rfl

theorem encodeFrame_toWord (idx : FuncIndex) (w : Bool) (p : Payload) :
    (encodeFrame idx w p).toWord = txWord idx w p := by
  rw [encodeFrame_eq_frameOf]
  rfl

/-! ### What an `ENCODE` step does -/

/-- A step that keeps `buf` whole and `cnt` leaves the framer unchanged. -/
theorem framerUnchanged_of_eq {s t : State} (hbuf : t.buf = s.buf) (hcnt : t.cnt = s.cnt) :
    FramerUnchanged s t := by
  simp [FramerUnchanged, hbuf, hcnt]

/-- `ENCODE` writes no state (R110). -/
theorem framerUnchanged_transmit (s : State) (e : EncodeOperands) :
    FramerUnchanged s (s.transmit e) :=
  framerUnchanged_of_eq (State.transmit_buf s e) (State.transmit_cnt s e)

/-- `ENCODE` raises `tx_valid` and puts the frame on `tx_frame` (R110). -/
theorem txOf_transmit (s : State) (e : EncodeOperands) : TxOf (s.transmit e).out (some e) := by
  rw [State.transmit_out]
  exact ⟨rfl, encodeFrame_toWord e.idx e.w e.p⟩

/-! ### The obligations -/

/-- Settles O11: an instruction and its expansion end in the same `transmit`, which keeps the framer
(`framerUnchanged_transmit`) and sends the frame of its operands (`txOf_transmit`). -/
theorem requestAndSetAreEncode : Obligations.RequestAndSetAreEncode := by
  constructor
  · intro idx s
    exact ⟨s.transmit ⟨idx, false, 0#16⟩, rfl, rfl, framerUnchanged_transmit s _, txOf_transmit s _⟩
  · intro idx p s
    exact ⟨s.transmit ⟨idx, true, p⟩, rfl, rfl, framerUnchanged_transmit s _, txOf_transmit s _⟩

/-- Settles O36: the decoder takes every port pattern (`decode_ports`), and every instruction it
reads has a next state (`exec_total`). -/
theorem everyPortPatternIsAccepted : Obligations.EveryPortPatternIsAccepted := by
  intro p rest s hpending
  rw [step_ok hpending (decode_ports p)]
  exact exec_total _ _

end Sys2Proof.Machine

/-!
PROOFS. Crc8: the bit loop of R80 on natural numbers, and why it needs no truncation (40_crc8.md
R81).
-/

namespace Sys2Proof

open Sys2Proof.Claims

/-! ### A round whose register does not overflow (R81) -/

/-- Bit 7 of the running value, as the model and as the loop on numbers test it. -/
theorem testBit_seven_eq_msb (c : Byte) : c.toNat.testBit 7 = c.msb := by
  rw [BitVec.testBit_toNat, BitVec.msb_eq_getLsbD_last]

/-- The register one bit wider holds the shifted value whole. -/
theorem wideShift_toNat (c : Byte) : (c.setWidth 9 <<< 1).toNat = c.toNat <<< 1 := by
  have := c.isLt
  rw [BitVec.toNat_shiftLeft, BitVec.toNat_setWidth, Nat.shiftLeft_eq, Nat.shiftLeft_eq]
  omega

/-- Bit 8 of the polynomial clears the bit that was shifted out of bit 7. -/
theorem msb_wideShift_xor_poly {c : Byte} (h : c.msb = true) :
    ((c.setWidth 9 <<< 1) ^^^ Config.crcPoly9).msb = false := by
  have hpoly : Config.crcPoly9.msb = true := by decide
  have hshift : (c.setWidth 9 <<< 1).msb = c.msb := by
    simp [BitVec.msb_eq_getLsbD_last]
  rw [BitVec.msb_xor, hshift, h, hpoly, Bool.xor_self]

theorem crcRound_toNat_of_msb {c : Byte} (h : c.msb = true) :
    (crcRound c).toNat = (c.toNat <<< 1) ^^^ 0x131 := by
  have hlt := BitVec.toNat_lt_of_msb_false (msb_wideShift_xor_poly h)
  rw [crcRound, if_pos h, BitVec.toNat_setWidth, Nat.mod_eq_of_lt hlt, BitVec.toNat_xor,
    wideShift_toNat]
  rfl

theorem crcRound_toNat_of_not_msb {c : Byte} (h : c.msb = false) :
    (crcRound c).toNat = c.toNat <<< 1 := by
  have hlt := BitVec.toNat_lt_of_msb_false h
  rw [crcRound, if_neg (by simp [h]), BitVec.toNat_shiftLeft, Nat.mod_eq_of_lt]
  rw [Nat.shiftLeft_eq]
  omega

/-! ### The rounds of one byte (R80) -/

/-- A round on eight bits is the round on numbers: neither branch loses a bit. -/
theorem crcRound_toNat (c : Byte) : (crcRound c).toNat = natRound c.toNat := by
  rw [natRound, testBit_seven_eq_msb]
  cases h : c.msb with
  | true => exact crcRound_toNat_of_msb h
  | false => exact crcRound_toNat_of_not_msb h

theorem crcShift_toNat (n : Nat) (c : Byte) : (crcShift n c).toNat = natRounds n c.toNat := by
  induction n generalizing c with
  | zero => rfl
  | succ n ih => rw [crcShift, natRounds, ih, crcRound_toNat]

end Sys2Proof

namespace Sys2Proof.Machine

open Sys2Proof Sys2Proof.Claims

/-! ### The obligation -/

/-- Settles O1: both are eight rounds after each of three exclusive-ors (`crc8_eq`), and the rounds
agree because none of them loses a bit (`crcRound_toNat`, by `crcShift_toNat`). -/
theorem crc8IsTheLoopOfR80 : Obligations.Crc8IsTheLoopOfR80 := by
  intro b1 b2 b3
  rw [crc8_eq]
  simp only [crcShift_toNat, BitVec.toNat_xor]
  rfl

end Sys2Proof.Machine

/-!
PROOFS. Framer: the step of `RXBYTE` with its outputs, by what the byte does to the framer
(41_framer.md R91 to R95), and that no other instruction but `RESET` writes `buf` or `cnt` (R100).
-/

namespace Sys2Proof

/-- Storing the marker is a write of byte 0 (R91). -/
theorem Frame.setStart_eq_put (f : Frame) (v : Byte) : { f with start := v } = f.put 0 v := rfl

end Sys2Proof

namespace Sys2Proof.Machine

open Sys2Proof Sys2Proof.Claims

/-! ### The three checks and the results of `DECODE` as R112 and R113 write them -/

theorem startWrong_eq (f : Frame) : startWrong f = decide (f.start ≠ 0x3A#8) := decide_not.symm

theorem dirWrong_eq (f : Frame) : dirWrong f = !f.flags.getLsbD 0 :=
  congrArg Bool.not (flagsDir_eq_bit f.flags)

theorem crcWrong_eq (f : Frame) : crcWrong f = decide (crc8 f.flags f.ph f.pl ≠ f.csum) :=
  decide_not.symm

/-- The model's `DECODE` is the function of R112. -/
theorem decodeFrame_eq_decodeResult (f : Frame) : decodeFrame f = decodeResult f := by
  have hidx : f.idx = f.flags.extractLsb' 1 7 := flagsIdx_eq_extract f.flags
  have hpayload : f.payload = f.ph ++ f.pl := payloadJoin_eq f.ph f.pl
  rw [decodeFrame, frameValid, frameErr_eq, startWrong_eq, dirWrong_eq, crcWrong_eq, hidx, hpayload]
  rfl

/-! ### The output record of an `RXBYTE` step -/

/-- A step that completed a candidate frame reports the results of R112 for it (R94). -/
theorem reports_withDelivered_some (o : Outputs) (f : Frame) :
    Reports (o.withDelivered (some f)) (decodeResult f) := by
  rw [← decodeFrame_eq_decodeResult]
  exact ⟨rfl, rfl, rfl, rfl, rfl⟩

@[simp] theorem reports_withEncoded (o : Outputs) (enc : Option EncodeOperands) (d : Decoded) :
    Reports (o.withEncoded enc) d ↔ Reports o d := by simp [Reports]

/-- The `tx_*` outputs are those of the step's `ENCODE`, and 0 without one (R17, R110). -/
theorem txOf_withEncoded {o : Outputs} (h : TxZero o) (enc : Option EncodeOperands) :
    TxOf (o.withEncoded enc) enc := by
  cases enc with
  | none => exact h
  | some e => exact ⟨rfl, encodeFrame_toWord e.idx e.w e.p⟩

/-- The step of a received byte, from what the byte does to the framer: no `frm_*` output where it
completes no candidate frame, the report of the frame it completes, and the `tx_*` outputs of the
step's `ENCODE` in both cases (R17, R41, R94). -/
theorem exec_rxbyte_of_acceptByte {s u : State} {b : Byte} {d : Option Frame}
    (h : s.acceptByte b = (u, d)) (enc : Option EncodeOperands) :
    ∃ t, exec (.rxbyte b enc) s = .next t ∧ t.buf = u.buf ∧ t.cnt = u.cnt ∧
      ShowsDelivery t.out d ∧ TxOf t.out enc := by
  refine ⟨_, exec_rxbyte b enc s, ?_⟩
  rw [h]
  refine ⟨rfl, rfl, ?_, txOf_withEncoded (by simp) enc⟩
  cases d with
  | none => exact (frmZero_withEncoded _ _).mpr frmZero_zero
  | some f => exact (reports_withEncoded _ _ _).mpr (reports_withDelivered_some _ f)

/-! ### The obligations -/

/-- Settles O16: `acceptByte_store` writes the one register and delivers nothing; below 4 the count
does not wrap. -/
theorem byteIsStoredAndCounted : Obligations.ByteIsStoredAndCounted := by
  intro s b enc hb hc
  obtain ⟨t, ht, hbuf, hcnt, hfrm, htx⟩ := exec_rxbyte_of_acceptByte (acceptByte_store s hb hc) enc
  have hcount : (s.cnt + 1).val = s.cnt.val + 1 := Fin.val_add_one_of_lt (Fin.lt_def.mpr hc)
  refine ⟨t, ht, hcnt ▸ hcount, ?_, fun j hj => ?_, hfrm, htx⟩ <;> rw [hbuf]
  · exact Frame.get_put_same s.buf s.cnt b
  · exact Frame.get_put_other s.buf b hj

/-- Settles O17: `acceptByte_complete` delivers the four bytes of the buffer with the fifth and
leaves the framer cleared. -/
theorem fifthByteDeliversAndClears : Obligations.FifthByteDeliversAndClears := by
  intro s b enc hb hc
  obtain ⟨t, ht, hbuf, hcnt, hfrm, htx⟩ :=
    exec_rxbyte_of_acceptByte (acceptByte_complete s hb hc) enc
  exact ⟨t, ht, hcnt, fun j => hbuf ▸ Frame.zero_get j, hfrm, htx⟩

/-- Settles O15: `acceptByte_marker` holds in every state, and writes byte 0 alone. -/
theorem markerRestartsAccumulation : Obligations.MarkerRestartsAccumulation := by
  intro s enc
  obtain ⟨t, ht, hbuf, hcnt, hfrm, htx⟩ := exec_rxbyte_of_acceptByte (acceptByte_marker s) enc
  rw [Frame.setStart_eq_put] at hbuf
  refine ⟨t, ht, hcnt, ?_, fun j hj => ?_, hfrm, htx⟩ <;> rw [hbuf]
  · exact Frame.get_put_same s.buf 0 0x3A#8
  · exact Frame.get_put_other s.buf 0x3A#8 hj

/-- Settles O33: of the instructions that perform no `RXBYTE` (`exec_cases_performs`), all but the
reset end in an update of the output record or of the returned result. -/
theorem onlyRxbyteAndResetChangeTheFramer : Obligations.OnlyRxbyteAndResetChangeTheFramer := by
  intro i s hrx hreset
  obtain ⟨rfl, -⟩ | ⟨-, -, r, e⟩ | ⟨b, enc, rfl⟩ | ⟨-, -, x, e⟩ | ⟨hrx', -, -⟩ :=
    exec_cases_performs i s
  · exact absurd rfl hreset
  · exact ⟨_, e, framerUnchanged_of_eq (State.withReturned_buf s r) (State.withReturned_cnt s r)⟩
  · cases hrx
  · exact ⟨_, e, framerUnchanged_transmit s x⟩
  · rw [hrx'] at hrx
    cases hrx

end Sys2Proof.Machine

/-!
PROOFS. Codec: `DECODE` as the function of R112, its three checks bit by bit (R113), and when the
frame of `ENCODE` is valid (42_codec.md R110, R117).
-/

namespace Sys2Proof.Machine

open Sys2Proof Sys2Proof.Claims

/-! ### The error flags bit by bit (R113) -/

theorem decodeFrame_err (f : Frame) :
    (decodeFrame f).err = BitVec.ofBool (crcWrong f) ++ BitVec.ofBool (dirWrong f)
      ++ BitVec.ofBool (startWrong f) :=
  frameErr_eq f

theorem decodeFrame_err_bit_zero (f : Frame) : (decodeFrame f).err.getLsbD 0 = startWrong f := by
  rw [decodeFrame_err, BitVec.getLsbD_append]
  simp

theorem decodeFrame_err_bit_one (f : Frame) : (decodeFrame f).err.getLsbD 1 = dirWrong f := by
  rw [decodeFrame_err, BitVec.getLsbD_append, BitVec.getLsbD_append]
  simp

theorem decodeFrame_err_bit_two (f : Frame) : (decodeFrame f).err.getLsbD 2 = crcWrong f := by
  rw [decodeFrame_err, BitVec.getLsbD_append, BitVec.getLsbD_append]
  simp

/-! ### The encoded frame through `DECODE` -/

/-- The frame of `ENCODE` has the marker and its checksum, so its direction bit alone decides. -/
theorem decodeFrame_encodeFrame_valid (idx : FuncIndex) (w : Bool) (p : Payload) :
    (decodeFrame (encodeFrame idx w p)).valid = w := by
  rw [Bool.eq_iff_iff, decodeFrame_valid_iff]
  simp

/-! ### The obligations -/

/-- Settles O5: the model makes the three checks of the rule and masks the same two fields
(`decodeFrame_eq_decodeResult`). -/
theorem decodeIsTheFunctionOfR112 : Obligations.DecodeIsTheFunctionOfR112 :=
  decodeFrame_eq_decodeResult

/-- Settles O6: each bit of `err` is one check alone, and validity is `decodeFrame_valid_iff_err`. -/
theorem decodeChecksAreIndependent : Obligations.DecodeChecksAreIndependent := by
  intro f
  refine ⟨?_, ?_, ?_, decodeFrame_valid_iff_err f⟩
  · rw [decodeFrame_err_bit_zero, startWrong_eq, decide_eq_true_iff]
  · rw [decodeFrame_err_bit_one, dirWrong_eq, Bool.not_eq_true']
  · rw [decodeFrame_err_bit_two, crcWrong_eq, decide_eq_true_iff, ne_comm]

/-- Settles O7: a frame with the marker, `W` = 1 and its own checksum is an encoded frame
(`encodeFrame_eq_frameOf`), and those are valid whatever the index and the payload. -/
theorem validityIgnoresIndexAndPayload : Obligations.ValidityIgnoresIndexAndPayload := by
  intro idx p
  rw [← encodeFrame_eq_frameOf]
  exact decodeFrame_encodeFrame_valid idx true p

/-- Settles O10: the next state is `transmit`, which keeps the framer (`framerUnchanged_transmit`)
and sends the frame of the operands alone (`txOf_transmit`). -/
theorem encodeProducesFrame : Obligations.EncodeProducesFrame := by
  intro idx w p s
  exact ⟨s.transmit ⟨idx, w, p⟩, rfl, framerUnchanged_transmit s _, txOf_transmit s _⟩

end Sys2Proof.Machine

/-!
PROOFS. Exceptions: what the step that completes an invalid candidate frame reports
(60_exceptions.md R169).
-/

namespace Sys2Proof.Machine

open Sys2Proof Sys2Proof.Claims

/-- A frame with a failed check is not valid, whichever check it is (R113). -/
theorem decodeResult_valid_of_failed_check {f : Frame}
    (h : f.start ≠ 0x3A#8 ∨ f.flags.getLsbD 0 = false ∨ f.csum ≠ crc8 f.flags f.ph f.pl) :
    (decodeResult f).valid = false := by
  rw [decodeResult, Bool.not_eq_false', Bool.or_eq_true, Bool.or_eq_true]
  obtain hstart | hdir | hcrc := h
  · exact .inl (.inl (decide_eq_true hstart))
  · exact .inl (.inr (by rw [hdir, Bool.not_false]))
  · exact .inr (decide_eq_true hcrc.symm)

/-- An invalid frame has no index (R116). -/
theorem decodeResult_idx_of_invalid {f : Frame} (h : (decodeResult f).valid = false) :
    (decodeResult f).idx = 0#7 :=
  if_neg (Bool.eq_false_iff.mp h)

/-- An invalid frame has no payload (R116). -/
theorem decodeResult_payload_of_invalid {f : Frame} (h : (decodeResult f).valid = false) :
    (decodeResult f).payload = 0#16 :=
  if_neg (Bool.eq_false_iff.mp h)

/-- Settles O18: the fifth byte delivers and clears whatever the checks say
(`fifthByteDeliversAndClears`), and the report of a frame with a failed check is masked. -/
theorem invalidFrameIsReportedAndCleared : Obligations.InvalidFrameIsReportedAndCleared := by
  intro s b enc hb hc hfail
  obtain ⟨t, ht, hcnt, hbuf, ⟨hdone, hvalid, herr, hidx, hpayload⟩, -⟩ :=
    fifthByteDeliversAndClears s b enc hb hc
  have hinvalid := decodeResult_valid_of_failed_check
    (f := ⟨s.buf.get 0, s.buf.get 1, s.buf.get 2, s.buf.get 3, b⟩) hfail
  refine ⟨t, ht, hdone, hvalid.trans hinvalid, ?_,
    hidx.trans (decodeResult_idx_of_invalid hinvalid),
    hpayload.trans (decodeResult_payload_of_invalid hinvalid), hcnt, hbuf⟩
  simp only [herr, decodeResult, ne_comm]

end Sys2Proof.Machine

/-!
PROOFS. Reset: `RESET` at the ports, whatever the other inputs are (70_reset_and_hazards.md R180,
R181).
-/

namespace Sys2Proof

/-- `rst` overrides the other two enables (R53). -/
theorem decodePorts_of_rst {p : PortInputs} (hrst : p.rst = true) : decodePorts p = .reset := by
  simp [decodePorts, hrst]

end Sys2Proof

namespace Sys2Proof.Machine

open Sys2Proof

theorem exec_reset (s : State) :
    exec .reset s = .next (s.clearFramer.withOutputs Outputs.zero) := rfl

/-- A step whose inputs have `rst` 1 is a reset: it keeps nothing of the state but what is still
pending (R180). -/
theorem step_of_rst {s : State} {p : PortInputs} {rest : List Stimulus} (hrst : p.rst = true)
    (hpending : s.pending = .ports p :: rest) :
    step s = .next (({ s with pending := rest }).clearFramer.withOutputs Outputs.zero) := by
  rw [step_ok hpending (decode_ports p), decodePorts_of_rst hrst, exec_reset]

/-- Settles O31: either step is a reset (`step_of_rst`), and both end in the cleared framer with
every output 0. -/
theorem resetOverridesAndIsIdempotent : Obligations.ResetOverridesAndIsIdempotent := by
  intro p rest s hrst hpending
  have hfirst := step_of_rst hrst hpending
  have hsecond := step_of_rst (s := ({ s with pending := .ports p :: rest }).clearFramer.withOutputs
    Outputs.zero) hrst rfl
  exact ⟨_, _, hfirst, hsecond, rfl, rfl, rfl, rfl, rfl, rfl, rfl⟩

end Sys2Proof.Machine

/-!
PROOFS. Other: the invariant (10_state.md R22), the checksum by table (40_crc8.md R84, R86), the
round trips of the encoding (30_encoding.md sections 1 to 5) and of the codec (42_codec.md R119,
R120), frames sent, received and heard back, byte streams (41_framer.md R99 to R102), and the step.
-/

namespace Sys2Proof

/-! ### The bytes of a payload -/

@[simp] theorem Frame.payload_high (f : Frame) : f.payload.extractLsb' 8 8 = f.ph :=
  congrArg Prod.fst (payloadSplit_payloadJoin f.ph f.pl)

@[simp] theorem Frame.payload_low (f : Frame) : f.payload.extractLsb' 0 8 = f.pl :=
  congrArg Prod.snd (payloadSplit_payloadJoin f.ph f.pl)

end Sys2Proof

namespace Sys2Proof.Machine

open Sys2Proof Sys2Proof.Claims

/-! ### The fields of a decoded frame -/

/-- A valid frame's index is not masked to 0 (R116; D8). -/
theorem decodeFrame_idx_of_valid {f : Frame} (h : (decodeFrame f).valid = true) :
    (decodeFrame f).idx = f.idx :=
  if_pos h

/-- An invalid frame has neither an index nor a payload (R116). -/
theorem decodeFrame_fields_of_invalid {f : Frame} (h : (decodeFrame f).valid = false) :
    (decodeFrame f).idx = 0#7 ∧ (decodeFrame f).payload = 0#16 := by
  rw [decodeFrame_eq_decodeResult] at h ⊢
  exact ⟨decodeResult_idx_of_invalid h, decodeResult_payload_of_invalid h⟩

/-! ### Coherence of the output record (R16, R17) -/

theorem coherent_zero : Outputs.zero.Coherent where
  silent _ := ⟨rfl, rfl⟩
  valid_iff h := by cases h
  invalid_zero _ := ⟨rfl, rfl⟩
  payload_free h := by cases h
  tx_zero _ := rfl
  tx_frame h := by cases h

/-- A delivered frame is reported coherently, since `DECODE` masks the fields of an invalid one; its
payload is free of 0x3A because its own bytes are (R101). -/
theorem coherent_withDelivered {o : Outputs} (ho : o.Coherent) {d : Option Frame}
    (hd : ∀ f, d = some f → f.TailFree) : (o.withDelivered d).Coherent := by
  cases d with
  | none => exact ho
  | some f =>
    obtain ⟨-, hph, hpl, -⟩ := hd f rfl
    exact {
      silent := fun h => by cases h
      valid_iff := fun _ => decodeFrame_valid_iff_err f
      invalid_zero := fun h => decodeFrame_fields_of_invalid h
      payload_free := fun h => by
        rw [Outputs.withDelivered_some_frmPayload, decodeFrame_payload_of_valid h,
          Frame.payload_high, Frame.payload_low]
        exact ⟨hph, hpl⟩
      tx_zero := ho.tx_zero
      tx_frame := ho.tx_frame }

/-- `ENCODE` sends a frame that begins with the marker and carries its checksum (R110). -/
theorem coherent_withEncoded {o : Outputs} (ho : o.Coherent) (enc : Option EncodeOperands) :
    (o.withEncoded enc).Coherent := by
  cases enc with
  | none => exact ho
  | some e =>
    exact {
      silent := ho.silent
      valid_iff := ho.valid_iff
      invalid_zero := ho.invalid_zero
      payload_free := ho.payload_free
      tx_zero := fun h => by cases h
      tx_frame := fun _ => by
        rw [Outputs.withEncoded_some_txFrame, Frame.ofWord_toWord]
        exact ⟨encodeFrame_start .., encodeFrame_csum ..⟩ }

/-! ### What a delivery leaves (R22, R95, R101) -/

/-- The framer delivers a frame with no marker after byte 0, and is then cleared. -/
theorem acceptByte_delivery {s : State} {b : Byte} {f : Frame} (hs : s.buf.TailFree)
    (h : (s.acceptByte b).2 = some f) : f.TailFree ∧ (s.acceptByte b).1.Cleared := by
  obtain ⟨hflags, hph, hpl, -⟩ := hs
  obtain ⟨hb, hcnt, rfl⟩ := (acceptByte_delivers s b f).mp h
  refine ⟨⟨hflags, hph, hpl, hb⟩, ?_⟩
  rw [acceptByte_complete s hb hcnt]
  exact ⟨rfl, rfl⟩

/-- The fifth byte of a frame, too, finds a buffer with no marker after byte 0. -/
theorem acceptFrame_eq_acceptByte {s : State} (hs : s.buf.TailFree) (f : Frame) :
    ∃ u : State, u.buf.TailFree ∧ s.acceptFrame f = u.acceptByte f.csum :=
  ⟨_, acceptByte_tailFree _ _ (acceptByte_tailFree _ _ (acceptByte_tailFree _ _
    (acceptByte_tailFree _ _ hs))), rfl⟩

/-! ### The invariant -/

/-- A state whose output record tells of a frame delivered and operands encoded meets the invariant,
if the buffer holds no marker after byte 0, nor does the frame, and the frame left it cleared. -/
theorem inv_of_out_eq {s : State} {d : Option Frame} {enc : Option EncodeOperands}
    (hout : s.out = (Outputs.zero.withDelivered d).withEncoded enc) (hbuf : s.buf.TailFree)
    (hd : ∀ f, d = some f → f.TailFree ∧ s.Cleared) : s.Inv where
  tailFree := hbuf
  coherent := hout ▸
    coherent_withEncoded (coherent_withDelivered coherent_zero fun f h => (hd f h).1) enc
  cleared hdone := by
    cases d with
    | none => rw [hout, Outputs.withEncoded_frmDone] at hdone; cases hdone
    | some f => exact (hd f rfl).2

/-- A state in which nothing was delivered meets the invariant as soon as its buffer does. -/
theorem inv_of_silent {s : State} {enc : Option EncodeOperands}
    (hout : s.out = Outputs.zero.withEncoded enc) (hbuf : s.buf.TailFree) : s.Inv :=
  inv_of_out_eq (d := none) hout hbuf fun _ h => by cases h

theorem zero_tailFree : Frame.zero.TailFree := by decide

/-- Every instruction keeps the invariant: of the state before it, only that the buffer holds no
marker after byte 0 is used. -/
theorem exec_inv {i : Instr} {s t : State} (hs : s.buf.TailFree) (h : exec i s = .next t) :
    t.Inv := by
  obtain ⟨-, e⟩ | ⟨-, e⟩ | ⟨b, enc, -, e⟩ | ⟨x, e⟩ | ⟨r, e⟩ | ⟨f, -, e⟩ := exec_cases i s <;>
    rw [e] at h <;> cases h
  · exact inv_of_silent (enc := none) rfl zero_tailFree
  · exact inv_of_silent (enc := none) rfl hs
  · exact inv_of_out_eq rfl (acceptByte_tailFree s b hs) fun _ => acceptByte_delivery hs
  · exact inv_of_silent (enc := some x) rfl hs
  · exact inv_of_silent (enc := none) rfl hs
  · obtain ⟨u, hu, hf⟩ := acceptFrame_eq_acceptByte hs f
    refine inv_of_out_eq (d := (s.acceptFrame f).2) (enc := none) rfl ?_ ?_
    · rw [State.receive_buf, hf]
      exact acceptByte_tailFree u f.csum hu
    · rw [State.Cleared, State.receive_cnt, State.receive_buf, hf]
      exact fun _ => acceptByte_delivery hu

/-! ### The obligations on the invariant -/

/-- Settles O43: a step is one instruction on the same framer (`step_cases`), and every instruction
keeps the invariant (`exec_inv`). -/
theorem stepKeepsInvariant : Obligations.StepKeepsInvariant := by
  intro s t hs h
  obtain ⟨i, l, hexec⟩ := step_cases h
  exact exec_inv (s := { s with pending := l }) hs.tailFree hexec

/-- Settles O42: the reset state has the cleared buffer and the record that is all 0. -/
theorem resetStateMeetsInvariant : Obligations.ResetStateMeetsInvariant :=
  inv_of_silent (enc := none) rfl zero_tailFree

/-- Settles O20: the delivered bytes are those of the buffer and a fifth that is not the marker
(`acceptByte_delivery`); a valid frame has `W` = 1, so `{idx, 1}` is odd and never 0x3A
(`flagsByte_write_ne_marker`). -/
theorem deliveredFrameShape : Obligations.DeliveredFrameShape := by
  intro s b f hs h
  have hfree := (acceptByte_delivery hs h).1
  refine ⟨hfree, fun hvalid => ?_⟩
  obtain ⟨hstart, -, -⟩ := (decodeFrame_valid_iff f).mp hvalid
  have ⟨_, hph, hpl, _⟩ := hfree
  rw [decodeFrame_payload_of_valid hvalid, Frame.payload_high, Frame.payload_low]
  refine ⟨hstart, hfree, hph, hpl, ?_⟩
  have hodd := flagsByte_write_ne_marker (decodeFrame f).idx
  rwa [flagsByte_eq_append] at hodd

end Sys2Proof.Machine

namespace Sys2Proof

open Sys2Proof.Claims

/-! ### The checksum by table (R84, R86) -/

/-- Eight rounds are one lookup in the printed table, entry by entry (R86). -/
theorem crcShift_eight_eq_tableT (c : Byte) : crcShift 8 c = tableT c := by
  revert c; decide

/-- The form of R84 (c). -/
theorem crc8_eq_tableT (b1 b2 b3 : Byte) :
    crc8 b1 b2 b3 = tableT (tableT (tableT (0xFF#8 ^^^ b1) ^^^ b2) ^^^ b3) := by
  simp only [crc8_eq, crcShift_eight_eq_tableT]

/-- For one byte, different running values give different results. -/
theorem crcStep_injective_value (b : Byte) : Function.Injective fun c => crcStep c b :=
  fun _ _ h => (BitVec.xor_left_inj _).mp (crcShift_injective 8 h)

/-- From one running value, different bytes give different results. -/
theorem crcStep_injective_byte (c : Byte) : Function.Injective (crcStep c) :=
  fun _ _ h => (BitVec.xor_right_inj _).mp (crcShift_injective 8 h)

/-- The loop of R80, unrolled to its three bytes. -/
theorem crc8_eq_crcStep (b1 b2 b3 : Byte) :
    crc8 b1 b2 b3 = crcStep (crcStep (crcStep Config.crcInit b1) b2) b3 := rfl

/-- Settles O2: each of the three bytes is eight rounds (`crc8_eq`), and these are one lookup
(`crcShift_eight_eq_tableT`). -/
theorem crc8IsThreeTableLookups : Obligations.Crc8IsThreeTableLookups := crc8_eq_tableT

/-- Settles O3: on the finite set of bytes it is enough that the checksum is injective; it composes
the steps of three bytes, injective in the byte and in the running value. -/
theorem crc8BijectiveInEachOperand : Obligations.Crc8BijectiveInEachOperand := by
  unfold Obligations.Crc8BijectiveInEachOperand
  simp only [crc8_eq_crcStep]
  refine ⟨fun b2 b3 => ?_, fun b1 b3 => ?_, fun b1 b2 => ?_⟩ <;>
    refine Finite.injective_iff_bijective.mp ?_
  · exact (crcStep_injective_value b3).comp
      ((crcStep_injective_value b2).comp (crcStep_injective_byte _))
  · exact (crcStep_injective_value b3).comp (crcStep_injective_byte _)
  · exact crcStep_injective_byte _

/-! ### The function index map (R58) -/

/-- A named word is one of the six of the map, with the row the map gives it. -/
theorem mem_sentRows_of_decodeNamedSent {w : FrameWord} {i : Instr}
    (h : decodeNamedSent w = .ok i) : (w, i) ∈ sentRows := by
  unfold decodeNamedSent at h
  split at h
  next j hj =>
    cases h
    obtain ⟨l₁, l₂, hl, -⟩ := List.lookup_eq_some_iff.mp hj
    simp [hl]
  next => cases h

/-- Each of the six rows is well formed, and its word is what it encodes to. -/
theorem encode_of_mem_sentRows {r : FrameWord × Instr} (h : r ∈ sentRows) :
    r.2.wellFormed = true ∧ encode r.2 = .named .sent r.1 := by
  revert r; decide

/-- The indices 8 to 127 are those that no response row of its own names. -/
theorem idxUnknown_iff (idx : FuncIndex) :
    idxUnknown idx = true ↔ idx ≠ 0#7 ∧ idx ≠ 1#7 ∧ idx ≠ 2#7 ∧ idx ≠ 3#7 ∧ idx ≠ 4#7 ∧ idx ≠ 5#7 ∧
      idx ≠ 6#7 ∧ idx ≠ 7#7 := by
  revert idx; decide

theorem responseRow_of_unknown {idx : FuncIndex} (h : idxUnknown idx = true) (p : Payload)
    (ck : Byte) : responseRow idx p ck = .rspUnknown idx p ck := by
  obtain ⟨h0, h1, h2, h3, h4, h5, h6, h7⟩ := (idxUnknown_iff idx).mp h
  simp [responseRow, h0, h1, h2, h3, h4, h5, h6, h7]

/-- The row of a response is well formed and encodes to the response's word, whatever its index. -/
theorem encode_responseRow (idx : FuncIndex) (p : Payload) (ck : Byte) :
    (responseRow idx p ck).wellFormed = true ∧
      encode (responseRow idx p ck) = responseWord idx p ck := by
  by_cases h : idxUnknown idx = true
  · rw [responseRow_of_unknown h]
    exact ⟨h, rfl⟩
  · have hnamed : idx = 0#7 ∨ idx = 1#7 ∨ idx = 2#7 ∨ idx = 3#7 ∨ idx = 4#7 ∨ idx = 5#7 ∨
        idx = 6#7 ∨ idx = 7#7 := by
      simpa only [idxUnknown_iff, ne_eq, ← not_or, not_not] using h
    obtain rfl | rfl | rfl | rfl | rfl | rfl | rfl | rfl := hnamed <;> exact ⟨rfl, rfl⟩

/-! ### What each reading of a frame accepts -/

/-- A frame reads as a response exactly with the marker and `W` = 1 (R58, R59). -/
theorem decodeNamedReceived_eq_ok_iff (f : Frame) (i : Instr) :
    decodeNamedReceived f = .ok i ↔
      f.start = Config.startMarker ∧ f.dir = true ∧ i = responseRow f.idx f.payload f.csum := by
  unfold decodeNamedReceived
  split_ifs with hstart hdir
  · simp [hstart]
  · simp [not_not.mp hstart, hdir, eq_comm]
  · simp [hdir]

/-- The row of a frame read by its class: the direction bit chooses (R59). -/
def classRow (dir : Direction) (f : Frame) : Instr :=
  if f.dir then .frameWr dir f.idx f.payload f.csum else .frameRd dir f.idx f.payload f.csum

/-- A frame is of a class exactly with the marker and, to be sent, its checksum (R56, R59). -/
theorem decodeClass_eq_ok_iff (dir : Direction) (f : Frame) (i : Instr) :
    decodeClass dir f = .ok i ↔
      f.start = Config.startMarker ∧ (dir = .sent → f.csum = f.checksum) ∧ i = classRow dir f := by
  unfold decodeClass
  split_ifs with hstart hcsum hdir
  · simp [hstart]
  · exact ⟨fun h => (by cases h), fun h => absurd (h.2.1 hcsum.1) hcsum.2⟩
  · rw [classRow, if_pos hdir, Except.ok.injEq]
    exact ⟨fun h => ⟨not_not.mp hstart, not_and_not_right.mp hcsum, h.symm⟩, fun h => h.2.2.symm⟩
  · rw [classRow, if_neg hdir, Except.ok.injEq]
    exact ⟨fun h => ⟨not_not.mp hstart, not_and_not_right.mp hcsum, h.symm⟩, fun h => h.2.2.symm⟩

/-- The pseudo-operation that builds a frame: the direction bit chooses (R66). -/
def pseudoRow (f : Frame) : Instr := if f.dir then .set f.idx f.payload else .request f.idx

/-- A frame is built by a pseudo-operation exactly with the marker, its checksum and, for a
`REQUEST`, no payload (R66). -/
theorem decodePseudo_eq_ok_iff (f : Frame) (i : Instr) :
    decodePseudo f = .ok i ↔
      f.start = Config.startMarker ∧ f.csum = f.checksum ∧ (f.dir = false → f.payload = 0#16) ∧
        i = pseudoRow f := by
  unfold decodePseudo
  split_ifs with hstart hcsum hdir hpayload
  · simp [hstart]
  · exact ⟨fun h => (by cases h), fun h => absurd h.2.1 hcsum⟩
  · simp [not_not.mp hstart, not_not.mp hcsum, hdir, pseudoRow, eq_comm]
  · simp [hdir, hpayload]
  · simp [not_not.mp hstart, not_not.mp hcsum, not_not.mp hpayload, hdir, pseudoRow, eq_comm]

/-- The class row is well formed when the frame carries the checksum a sent frame must have, and
it encodes to the frame. -/
theorem encode_classRow {dir : Direction} {f : Frame} (hstart : f.start = Config.startMarker)
    (hcsum : dir = .sent → f.csum = f.checksum) :
    (classRow dir f).wellFormed = true ∧ encode (classRow dir f) = .frame dir f.toWord := by
  have hword := congrArg Frame.toWord (Frame.make_fields f hstart)
  have hok : frameCsumOk dir f.idx f.dir f.payload f.csum = true := by
    cases dir with
    | received => rfl
    | sent =>
      rw [frameCsumOk, encodeFrame_fields f hstart (hcsum rfl)]
      exact beq_self_eq_true _
  rw [classRow]
  cases hdir : f.dir <;> rw [hdir] at hword hok <;>
    exact ⟨hok, congrArg (Stimulus.frame dir) hword⟩

/-- The pseudo-operation that builds a frame encodes to it. -/
theorem encode_pseudoRow {f : Frame} (hstart : f.start = Config.startMarker)
    (hcsum : f.csum = f.checksum) (hpayload : f.dir = false → f.payload = 0#16) :
    (pseudoRow f).wellFormed = true ∧ encode (pseudoRow f) = .pseudo f.toWord := by
  have hword := congrArg Frame.toWord (encodeFrame_fields f hstart hcsum)
  rw [pseudoRow]
  cases hdir : f.dir <;> rw [hdir] at hword
  · rw [hpayload hdir] at hword
    exact ⟨rfl, congrArg Stimulus.pseudo hword⟩
  · exact ⟨rfl, congrArg Stimulus.pseudo hword⟩

/-! ### What an encoded instruction is read as -/

/-- A response word is read as the row of its index. -/
theorem decode_responseWord (idx : FuncIndex) (p : Payload) (ck : Byte) :
    decode (responseWord idx p ck) = .ok (responseRow idx p ck) := by
  simp [responseWord, decode, decodeNamedReceived_eq_ok_iff]

/-- A frame of a class whose checksum byte its direction allows is read as its own class row. -/
theorem decode_frame_make {dir : Direction} {idx : FuncIndex} {w : Bool} {p : Payload} {ck : Byte}
    (h : frameCsumOk dir idx w p ck = true) :
    decode (.frame dir (Frame.make idx w p ck).toWord)
      = .ok (classRow dir (Frame.make idx w p ck)) := by
  rw [decode, Frame.ofWord_toWord, decodeClass_eq_ok_iff]
  refine ⟨rfl, fun hdir => ?_, rfl⟩
  subst hdir
  exact eq_of_beq h

/-- An encoded frame is read as the pseudo-operation that builds it; a `REQUEST` has no payload. -/
theorem decode_pseudo_encodeFrame {idx : FuncIndex} {w : Bool} {p : Payload}
    (h : w = false → p = 0#16) :
    decode (.pseudo (encodeFrame idx w p).toWord) = .ok (pseudoRow (encodeFrame idx w p)) := by
  rw [decode, Frame.ofWord_toWord, decodePseudo_eq_ok_iff]
  simpa using h

theorem decodePorts_wellFormed (p : PortInputs) : (decodePorts p).wellFormed = true := by
  unfold decodePorts
  split <;> rfl

/-! ### The ports (R53) -/

/-- `sel` tells the three enables. -/
theorem sel_eq_iff (p : PortInputs) (rst enc rx : Bool) :
    p.sel = BitVec.ofBool rst ++ BitVec.ofBool enc ++ BitVec.ofBool rx ↔
      p.rst = rst ∧ p.encValid = enc ∧ p.rxValid = rx := by
  rw [PortInputs.sel]
  generalize p.rst = a, p.encValid = b, p.rxValid = c
  revert a b c rst enc rx
  decide

/-- What is performed is chosen by `sel`. -/
theorem decodePorts_of_sel {p : PortInputs} {rst enc rx : Bool}
    (h : p.sel = BitVec.ofBool rst ++ BitVec.ofBool enc ++ BitVec.ofBool rx) :
    decodePorts p = decodePorts { p with rst := rst, encValid := enc, rxValid := rx } := by
  obtain ⟨rfl, rfl, rfl⟩ := (sel_eq_iff p rst enc rx).mp h
  rfl

theorem sel_bit_two (p : PortInputs) : p.sel.getLsbD 2 = p.rst := by
  rw [PortInputs.sel, BitVec.getLsbD_append, BitVec.getLsbD_append]
  simp

/-! ### The obligations on the encoding -/

/-- Settles O44: a word holds its fields unchanged (`Frame.ofWord_toWord`, `crcWord_bytes`), and
each reading of a frame gives the row of its fields (`decode_frame_make`,
`decode_pseudo_encodeFrame`, `decode_responseWord`). -/
theorem decodeOfEncodeIsTheInstruction : Obligations.DecodeOfEncodeIsTheInstruction := by
  intro i h
  cases i with
  | reset | idle | encode _ _ _ => rfl
  | rxbyte b enc => cases enc <;> rfl
  | decode f => rw [encode, decode, Frame.ofWord_toWord]
  | crc8 b1 b2 b3 =>
    obtain ⟨h1, h2, h3⟩ := crcWord_bytes b1 b2 b3
    rw [encode, decode, h1, h2, h3]
  | frameRd dir idx p ck => rw [encode, decode_frame_make h]; simp [classRow]
  | frameWr dir idx p ck => rw [encode, decode_frame_make h]; simp [classRow]
  | request idx => rw [encode, decode_pseudo_encodeFrame fun _ => rfl]; simp [pseudoRow]
  | set idx p => rw [encode, decode_pseudo_encodeFrame (by simp)]; simp [pseudoRow]
  | reqFwver | reqRain | reqSensor | reqOptics | setCalib | setCadence => rfl
  | rspFwver _ _ | rspRain _ _ | rspSensor _ _ | rspOptics _ _ | rspRate _ _ | rspRsvd5 _ _
  | rspRsvd6 _ _ | rspRsvd7 _ _ => exact decode_responseWord _ _ _
  | rspUnknown idx p ck => rw [encode, decode_responseWord, responseRow_of_unknown h]

/-- Settles O45: what each reading accepts is known (`decodeClass_eq_ok_iff` and the others), and
the row it answers encodes to the frame that was read (`encode_classRow` and the others). -/
theorem encodeOfDecodeIsTheWord : Obligations.EncodeOfDecodeIsTheWord := by
  intro x i h
  cases x with
  | ports p =>
    cases h
    exact ⟨decodePorts_wellFormed p, fun hports => absurd rfl (hports p)⟩
  | callCrc8 w =>
    cases h
    exact ⟨rfl, fun _ => congrArg Stimulus.callCrc8 (crcWord_append w)⟩
  | callDecode w =>
    cases h
    exact ⟨rfl, fun _ => congrArg Stimulus.callDecode (Frame.toWord_ofWord w)⟩
  | pseudo w =>
    obtain ⟨hstart, hcsum, hpayload, rfl⟩ := (decodePseudo_eq_ok_iff _ i).mp h
    obtain ⟨hwf, henc⟩ := encode_pseudoRow hstart hcsum hpayload
    exact ⟨hwf, fun _ => by rw [henc, Frame.toWord_ofWord]⟩
  | frame dir w =>
    obtain ⟨hstart, hcsum, rfl⟩ := (decodeClass_eq_ok_iff dir _ i).mp h
    obtain ⟨hwf, henc⟩ := encode_classRow hstart hcsum
    exact ⟨hwf, fun _ => by rw [henc, Frame.toWord_ofWord]⟩
  | named dir w =>
    cases dir with
    | sent =>
      obtain ⟨hwf, henc⟩ := encode_of_mem_sentRows (mem_sentRows_of_decodeNamedSent h)
      exact ⟨hwf, fun _ => henc⟩
    | received =>
      obtain ⟨hstart, hdir, rfl⟩ := (decodeNamedReceived_eq_ok_iff _ i).mp h
      obtain ⟨hwf, henc⟩ := encode_responseRow (Frame.ofWord w).idx (Frame.ofWord w).payload
        (Frame.ofWord w).csum
      refine ⟨hwf, fun _ => ?_⟩
      rw [henc, responseWord, ← hdir, Frame.make_fields _ hstart, Frame.toWord_ofWord]

/-- Settles O37: the instruction is that of the enables `sel` tells (`decodePorts_of_sel`). -/
theorem selectPerformsTheEnabledOperations : Obligations.SelectPerformsTheEnabledOperations := by
  intro p
  simp only [decode_ports, Except.ok.injEq]
  exact ⟨fun h => decodePorts_of_rst (sel_bit_two p ▸ h),
    decodePorts_of_sel (rst := false) (enc := false) (rx := false),
    decodePorts_of_sel (rst := false) (enc := false) (rx := true),
    decodePorts_of_sel (rst := false) (enc := true) (rx := false),
    decodePorts_of_sel (rst := false) (enc := true) (rx := true)⟩

/-- Settles O46: the two pseudo-operations need their checksum, which is read from the table. -/
theorem writtenWordsDecode : Obligations.WrittenWordsDecode := by
  refine ⟨rfl, rfl, rfl, rfl, ?_, ?_, rfl, rfl, rfl, rfl⟩ <;>
    rw [decode, decodePseudo_eq_ok_iff, Frame.checksum_eq, crc8_eq_tableT] <;> decide

end Sys2Proof

namespace Sys2Proof.Machine

open Sys2Proof Sys2Proof.Claims

/-! ### Calls and the idle step -/

/-- Settles O4: the call returns the model's checksum, which is the loop of R80
(`crc8IsTheLoopOfR80`). -/
theorem crc8CallReturnsChecksum : Obligations.Crc8CallReturnsChecksum := fun b1 b2 b3 s =>
  ⟨s.withReturned (.crc8 (crc8 b1 b2 b3)), crc8 b1 b2 b3, rfl, framerUnchanged_of_eq rfl rfl,
    frmZero_zero, txZero_zero, rfl, crc8IsTheLoopOfR80 b1 b2 b3⟩

/-- Settles O9: the call returns the model's `DECODE`, which is the function of R112
(`decodeFrame_eq_decodeResult`). -/
theorem decodeCallReturnsResults : Obligations.DecodeCallReturnsResults := fun f s =>
  ⟨s.withReturned (.decode (decodeFrame f)), rfl, framerUnchanged_of_eq rfl rfl, frmZero_zero,
    txZero_zero, congrArg Returned.decode (decodeFrame_eq_decodeResult f)⟩

/-- Settles O32: the idle step replaces the output record alone. -/
theorem idleLeavesStateUnchanged : Obligations.IdleLeavesStateUnchanged := fun s =>
  ⟨s.withOutputs Outputs.zero, rfl, framerUnchanged_of_eq rfl rfl, frmZero_zero, txZero_zero⟩

/-! ### The results of `DECODE` -/

/-- A valid frame is reported with no error and its own fields (R112). -/
theorem decodeFrame_of_valid {f : Frame} (h : (decodeFrame f).valid = true) :
    decodeFrame f = ⟨true, 0#3, f.idx, f.payload⟩ := by
  have herr : frameErr f = 0#3 := (decodeFrame_valid_iff_err f).mp h
  have hvalid : frameValid f = true := h
  simp [decodeFrame, hvalid, herr]

/-- An invalid frame is reported with its error flags alone (R116). -/
theorem decodeFrame_of_invalid {f : Frame} (h : (decodeFrame f).valid = false) :
    decodeFrame f = ⟨false, (decodeFrame f).err, 0#7, 0#16⟩ := by
  obtain ⟨hidx, hpayload⟩ := decodeFrame_fields_of_invalid h
  rw [← h, ← hidx, ← hpayload]

/-- A frame made with the marker can fail the direction and the checksum check alone (R113). -/
theorem decodeFrame_make_err (idx : FuncIndex) (w : Bool) (p : Payload) (ck : Byte) :
    (decodeFrame (Frame.make idx w p ck)).err
      = BitVec.ofBool (decide (ck ≠ csumOf idx w p)) ++ BitVec.ofBool (!w) ++ 0#1 := by
  have hcrc : crcWrong (Frame.make idx w p ck) = decide (ck ≠ csumOf idx w p) := by
    simp only [crcWrong_eq, make_eq_frameOf, ne_comm (a := ck)]
    rfl
  have hdir : dirWrong (Frame.make idx w p ck) = !w :=
    congrArg Bool.not (Frame.make_dir idx w p ck)
  rw [decodeFrame_err, hcrc, hdir]
  rfl

/-- A frame made with the marker is valid exactly with `W` = 1 and its checksum (R113). -/
theorem decodeFrame_make_valid_iff (idx : FuncIndex) (w : Bool) (p : Payload) (ck : Byte) :
    (decodeFrame (Frame.make idx w p ck)).valid = true ↔ w = true ∧ ck = csumOf idx w p := by
  have hcsum : (Frame.make idx w p ck).checksum = csumOf idx w p := by
    rw [make_eq_frameOf]
    rfl
  rw [decodeFrame_valid_iff, hcsum, Frame.make_dir, Frame.make_csum, eq_comm (a := ck)]
  exact and_iff_right rfl

/-- A `SET` frame through `DECODE` gives back its operands (R119). -/
theorem decodeFrame_encodeFrame_write (idx : FuncIndex) (p : Payload) :
    decodeFrame (encodeFrame idx true p) = ⟨true, 0#3, idx, p⟩ := by
  rw [decodeFrame_of_valid (decodeFrame_encodeFrame_valid idx true p), encodeFrame_idx,
    encodeFrame_payload]

/-- `ENCODE` makes the frame of its operands and their checksum (R110). -/
theorem encodeFrame_eq_make_csumOf (idx : FuncIndex) (w : Bool) (p : Payload) :
    encodeFrame idx w p = Frame.make idx w p (csumOf idx w p) := by
  rw [encodeFrame_eq_frameOf, make_eq_frameOf]

/-- A frame with `W` = 0 fails the direction check alone (R119). -/
theorem decodeFrame_encodeFrame_read (idx : FuncIndex) (p : Payload) :
    decodeFrame (encodeFrame idx false p) = ⟨false, 0b010#3, 0#7, 0#16⟩ := by
  have herr : (decodeFrame (encodeFrame idx false p)).err = 0b010#3 := by
    rw [encodeFrame_eq_make_csumOf, decodeFrame_make_err]
    simp
  rw [decodeFrame_of_invalid (decodeFrame_encodeFrame_valid idx false p), herr]

/-- Settles O13: the 40 bits on `tx_frame` are the encoded frame (`ofWord_transmit_txFrame`), which
decodes to its operands or fails the direction check alone. -/
theorem encodedFrameDecodesToOperands : Obligations.EncodedFrameDecodesToOperands := by
  intro idx p s
  refine ⟨s.transmit ⟨idx, true, p⟩, _, s.transmit ⟨idx, false, p⟩, _, rfl, rfl, ?_, rfl, rfl, ?_⟩
  · rw [ofWord_transmit_txFrame, State.withReturned_ret, decodeFrame_encodeFrame_write]
  · rw [ofWord_transmit_txFrame, State.withReturned_ret, decodeFrame_encodeFrame_read]

/-- An `ENCODE` alone. -/
theorem exec_encode (idx : FuncIndex) (w : Bool) (p : Payload) (s : State) :
    exec (.encode idx w p) s = .next (s.transmit ⟨idx, w, p⟩) := rfl

/-- The operands of `ENCODE` can be read off its frame. -/
theorem encodeFrame_injective {e e' : EncodeOperands}
    (h : encodeFrame e.idx e.w e.p = encodeFrame e'.idx e'.w e'.p) : e = e' := by
  have hidx := congrArg Frame.idx h
  have hdir := congrArg Frame.dir h
  have hpayload := congrArg Frame.payload h
  simp only [encodeFrame_idx, encodeFrame_dir, encodeFrame_payload] at hidx hdir hpayload
  cases e
  cases e'
  exact EncodeOperands.mk.injEq .. ▸ ⟨hidx, hdir, hpayload⟩

/-- Settles O14: word and frame tell the operands (`Frame.toWord_injective`,
`encodeFrame_injective`), and the one byte that passes check (c) is the checksum of bytes 1 to 3. -/
theorem encodeInjectiveAndChecksumUnique : Obligations.EncodeInjectiveAndChecksumUnique := by
  constructor
  · intro e e' s t t' ht ht' hword
    rw [exec_encode] at ht ht'
    cases ht
    cases ht'
    exact encodeFrame_injective (Frame.toWord_injective hword)
  · intro f
    have hiff (c : Byte) : (decodeFrame { f with csum := c }).err.getLsbD 2 = false ↔
        crc8 f.flags f.ph f.pl = c := by
      rw [decodeFrame_err_bit_two, crcWrong_eq, decide_eq_false_iff_not, not_not]
    exact ⟨crc8 f.flags f.ph f.pl, (hiff _).mpr rfl, fun c hc => ((hiff c).mp hc).symm⟩

/-! ### Frames sent -/

/-- What ends in `transmit` completes as `ENCODE` does (R110). -/
theorem completesAsEncode_of_transmit {i : Instr} {s : State} {idx : FuncIndex} {w : Bool}
    {p : Payload} (h : exec i s = .next (s.transmit ⟨idx, w, p⟩)) :
    CompletesAsEncode i s idx w p :=
  ⟨_, h, framerUnchanged_transmit s _, (frmZero_withEncoded _ _).mpr frmZero_zero,
    txOf_transmit s ⟨idx, w, p⟩⟩

/-- Settles O12: each of the six ends in `transmit`; the checksum byte of its word is read from the
table (`crc8_eq_tableT`). -/
theorem namedFramesAreSentAsPrinted : Obligations.NamedFramesAreSentAsPrinted := by
  intro s
  simp only [txWord, csumOf, crc8_eq_tableT]
  refine ⟨⟨?_, by decide⟩, ⟨?_, by decide⟩, ⟨?_, by decide⟩, ⟨?_, by decide⟩, ⟨?_, by decide⟩,
    ⟨?_, by decide⟩⟩ <;>
    exact completesAsEncode_of_transmit rfl

/-! ### Frames received -/

/-- Every instruction that receives a frame hands its bytes to the framer (R65). -/
theorem exec_of_receivedFields {i : Instr} {idx : FuncIndex} {w : Bool} {p : Payload} {ck : Byte}
    (h : receivedFields i = some (idx, w, p, ck)) (s : State) :
    exec i s = .next (s.receive (Frame.make idx w p ck)) := by
  cases i with
  | frameRd dir _ _ _ | frameWr dir _ _ _ =>
    cases dir with
    | sent => cases h
    | received => cases h; rfl
  | rspFwver _ _ | rspRain _ _ | rspSensor _ _ | rspOptics _ _ | rspRate _ _ | rspRsvd5 _ _
  | rspRsvd6 _ _ | rspRsvd7 _ _ | rspUnknown _ _ _ => cases h; rfl
  | _ => cases h

/-- A response is a received frame with `W` = 1 (R58, R59). -/
theorem receivedFields_of_responseFields {i : Instr} {idx : FuncIndex} {p : Payload} {ck : Byte}
    (h : responseFields i = some (idx, p, ck)) : receivedFields i = some (idx, true, p, ck) := by
  unfold receivedFields
  split
  · cases h
  · cases h
  · rw [h]; rfl

/-- `Receivable` says of the fields of a frame that it has no marker after byte 0. -/
theorem make_tailFree_iff (idx : FuncIndex) (w : Bool) (p : Payload) (ck : Byte) :
    (Frame.make idx w p ck).TailFree ↔ Receivable idx w p ck := by
  rw [make_eq_frameOf]
  rfl

/-- A received frame with no marker after byte 0 is delivered (R94, R102). -/
theorem completesByDelivering_of_receive {i : Instr} {s : State} {idx : FuncIndex} {w : Bool}
    {p : Payload} {ck : Byte} (h : exec i s = .next (s.receive (Frame.make idx w p ck)))
    (hr : Receivable idx w p ck) : CompletesByDelivering i s idx w p ck := by
  have hdel := acceptFrame_delivers s _ rfl ((make_tailFree_iff idx w p ck).mpr hr)
  rw [State.receive, hdel] at h
  refine ⟨_, h, rfl, rfl, txZero_zero, rfl, decodeFrame_make_err idx w p ck, fun hok => ?_,
    fun hbad => ?_⟩
  · have hvalid := (decodeFrame_make_valid_iff idx w p ck).mpr hok
    exact ⟨hvalid, (decodeFrame_idx_of_valid hvalid).trans (Frame.make_idx idx w p ck),
      (decodeFrame_payload_of_valid hvalid).trans (Frame.make_payload idx w p ck)⟩
  · have hinvalid : (decodeFrame (Frame.make idx w p ck)).valid = false := by
      rw [Bool.eq_false_iff, ne_eq, decodeFrame_make_valid_iff]
      rintro ⟨rfl, hcsum⟩
      exact hbad.elim Bool.noConfusion (absurd hcsum)
    exact ⟨hinvalid, decodeFrame_fields_of_invalid hinvalid⟩

/-- Settles O21: a response row receives the frame with its index and `W` = 1, which is delivered
from every state (`completesByDelivering_of_receive`). -/
theorem responsesOfEveryIndexDelivered : Obligations.ResponsesOfEveryIndexDelivered :=
  fun _ _ _ _ s h hr =>
    completesByDelivering_of_receive
      (exec_of_receivedFields (receivedFields_of_responseFields h) s) hr

/-- Settles O22: a frame sent ends in `transmit`, a frame received in `receive`. -/
theorem frameClassesSentAndReceived : Obligations.FrameClassesSentAndReceived := fun _ _ _ _ =>
  ⟨completesAsEncode_of_transmit rfl, completesAsEncode_of_transmit rfl,
    completesByDelivering_of_receive rfl, completesByDelivering_of_receive rfl⟩

/-! ### Frames with a marker after byte 0 -/

/-- In a synced framer a byte that does not complete a frame is counted from the marker on, or is
the marker and starts over (R91, R92). -/
theorem acceptByte_of_synced {s : State} {b : Byte} (hs : s.Synced)
    (hb : b = 0x3A#8 ∨ s.cnt.val < 4) :
    (s.acceptByte b).2 = none ∧ (s.acceptByte b).1.Synced ∧
      (s.acceptByte b).1.cnt.val = if b = 0x3A#8 then 1 else s.cnt.val + 1 := by
  obtain ⟨hcnt, hstart⟩ := hs
  obtain ⟨hm, h⟩ | ⟨hm, hlt, h⟩ | ⟨hm, hc, h⟩ := acceptByte_cases s b
  · rw [h, if_pos hm]
    exact ⟨rfl, ⟨le_rfl, rfl⟩, rfl⟩
  · have hcount : (s.cnt + 1).val = s.cnt.val + 1 := Fin.val_add_one_of_lt (Fin.lt_def.mpr hlt)
    have hne : (0 : Fin 5) ≠ s.cnt := fun h0 => by simp [← h0] at hcnt
    rw [h, if_neg hm]
    refine ⟨rfl, ⟨?_, ?_⟩, hcount⟩
    · simp [hcount]
    · exact (Frame.get_put_other s.buf b hne).trans hstart
  · exact absurd hb (by simp [hm, hc])

/-- A frame with a marker after byte 0 delivers nothing, and leaves the bytes from its last marker
on counted: the count is too low for byte 4 to complete a frame, or byte 4 is the marker (R188). -/
theorem acceptFrame_marked (s : State) {f : Frame} (hs : f.start = 0x3A#8) (hf : ¬ f.TailFree) :
    (s.acceptFrame f).2 = none ∧ (s.acceptFrame f).1.Synced ∧
      (s.acceptFrame f).1.cnt.val = if f.csum = 0x3A#8 then 1 else if f.pl = 0x3A#8 then 2
        else if f.ph = 0x3A#8 then 3 else 4 := by
  have h0 : (s.acceptByte f.start).1.Synced := by rw [hs, acceptByte_marker]; exact ⟨le_rfl, rfl⟩
  have c0 : (s.acceptByte f.start).1.cnt.val = 1 := by rw [hs, acceptByte_marker]; rfl
  have hmarked : f.flags = 0x3A#8 ∨ f.ph = 0x3A#8 ∨ f.pl = 0x3A#8 ∨ f.csum = 0x3A#8 := by
    simpa only [Frame.TailFree, not_and_or, not_not, ne_eq] using hf
  obtain ⟨-, h1, c1⟩ := acceptByte_of_synced (b := f.flags) h0 (.inr (by omega))
  obtain ⟨-, h2, c2⟩ := acceptByte_of_synced (b := f.ph) h1 (.inr (by grind))
  obtain ⟨-, h3, c3⟩ := acceptByte_of_synced (b := f.pl) h2 (.inr (by grind))
  obtain ⟨hnone, h4, c4⟩ := acceptByte_of_synced (b := f.csum) h3 (by grind)
  exact ⟨hnone, h4, c4.trans (by grind)⟩

/-- Settles O23: such a frame leaves the framer synced and silent (`acceptFrame_marked`); `ENCODE`
ends in `transmit` whatever its operands are. -/
theorem markedFrameIsNeverDelivered : Obligations.MarkedFrameIsNeverDelivered := by
  constructor
  · intro i idx w p ck s hi hr
    obtain ⟨hnone, ⟨-, hstart⟩, hcnt⟩ := acceptFrame_marked s (f := Frame.make idx w p ck) rfl
      (mt (make_tailFree_iff idx w p ck).mp hr)
    refine ⟨_, exec_of_receivedFields hi s, ?_, ?_, hstart, hcnt⟩ <;>
      rw [State.receive_out, hnone]
    · exact frmZero_zero
    · exact txZero_zero
  · exact fun idx w p s => completesAsEncode_of_transmit rfl

/-! ### Frames heard back (R190) -/

/-- The word on `tx_frame` is the frame of the operands and their checksum (R110). -/
theorem transmit_txFrame (s : State) (e : EncodeOperands) :
    (s.transmit e).out.txFrame = (Frame.make e.idx e.w e.p (csumOf e.idx e.w e.p)).toWord :=
  congrArg Frame.toWord (encodeFrame_eq_make_csumOf e.idx e.w e.p)

/-- The checksum byte on `tx_frame` (R56, R110). -/
theorem transmit_csum (s : State) (e : EncodeOperands) :
    (Frame.ofWord (s.transmit e).out.txFrame).csum = csumOf e.idx e.w e.p := by
  rw [transmit_txFrame, Frame.ofWord_toWord, Frame.make_csum]

/-- Settles O25: the byte received last is the checksum that was sent (`transmit_csum`), so the
frame is delivered (`frameClassesSentAndReceived`) and passes every check but, for a request, the
direction check. -/
theorem echoOfSetIsAcceptedOfRequestRejected :
    Obligations.EchoOfSetIsAcceptedOfRequestRejected := by
  constructor
  · intro idx p s hr
    obtain ⟨-, -, -, hdelivers⟩ :=
      frameClassesSentAndReceived idx p (csumOf idx true p) (s.transmit ⟨idx, true, p⟩)
    obtain ⟨u, hu, -, -, -, hdone, herr, hok, -⟩ := hdelivers hr
    obtain ⟨hvalid, hidx, hpayload⟩ := hok ⟨rfl, rfl⟩
    refine ⟨_, rfl, u, ?_⟩
    rw [transmit_csum]
    exact ⟨hu, transmit_txFrame s _, hdone, hvalid, herr.trans (by simp), hidx, hpayload⟩
  · intro idx s hr
    obtain ⟨-, -, hdelivers, -⟩ :=
      frameClassesSentAndReceived idx 0#16 (csumOf idx false 0#16) (s.transmit ⟨idx, false, 0#16⟩)
    obtain ⟨u, hu, -, -, -, hdone, herr, -, hbad⟩ := hdelivers hr
    obtain ⟨hvalid, hidx, hpayload⟩ := hbad (.inl rfl)
    refine ⟨_, rfl, u, ?_⟩
    rw [transmit_csum]
    exact ⟨hu, transmit_txFrame s _, hdone, hvalid, herr.trans (by simp), hidx, hpayload⟩

/-! ### The fields that hold the step before (R16, R186) -/

/-- A byte does not read the output record or what was returned, and keeps what is pending. -/
theorem acceptByte_withOutRet (s : State) (b : Byte) (o : Outputs) (r : Returned) :
    ({ s with out := o, ret := r } : State).acceptByte b
      = ({ (s.acceptByte b).1 with out := o, ret := r }, (s.acceptByte b).2) := by
  refine (acceptByte_withHeld s b o r s.pending).trans ?_
  rw [← acceptByte_pending s b]

/-- Nor does a frame. -/
theorem acceptFrame_withOutRet (s : State) (f : Frame) (o : Outputs) (r : Returned) :
    ({ s with out := o, ret := r } : State).acceptFrame f
      = ({ (s.acceptFrame f).1 with out := o, ret := r }, (s.acceptFrame f).2) := by
  simp only [State.acceptFrame, acceptByte_withOutRet]

/-- Receiving a frame replaces both fields, so the result is the same state. -/
theorem receive_withOutRet (s : State) (f : Frame) (o : Outputs) (r : Returned) :
    ({ s with out := o, ret := r } : State).receive f = s.receive f := by
  simp only [State.receive, acceptFrame_withOutRet, State.withOutputs]

/-- Settles O35: a received byte or frame reads `buf` and `cnt` alone (`acceptByte_withOutRet`,
`receive_withOutRet`); every other instruction replaces both fields without reading them. -/
theorem outputsAreNotHeld : Obligations.OutputsAreNotHeld := by
  intro i s o r
  cases i with
  | rxbyte b enc => simp only [exec_rxbyte, acceptByte_withOutRet, State.withOutputs]
  | frameRd dir _ _ _ | frameWr dir _ _ _ =>
    cases dir with
    | sent => rfl
    | received => exact congrArg Host.Outcome.next (receive_withOutRet s _ o r)
  | rspFwver _ _ | rspRain _ _ | rspSensor _ _ | rspOptics _ _ | rspRate _ _ | rspRsvd5 _ _
  | rspRsvd6 _ _ | rspRsvd7 _ _ | rspUnknown _ _ _ =>
    exact congrArg Host.Outcome.next (receive_withOutRet s _ o r)
  | _ => rfl

/-- An instruction does after a step that kept the framer what it does before it. -/
theorem exec_withOutputs (i : Instr) (s : State) (o : Outputs) :
    exec i (s.withOutputs o) = exec i s :=
  outputsAreNotHeld i s o .nothing

/-! ### `RXBYTE` after `RXBYTE` or `ENCODE` -/

/-- The step of a byte that completes no frame, with no `ENCODE` in it (R17). -/
theorem exec_rxbyte_silent {s : State} {b : Byte} (h : (s.acceptByte b).2 = none) :
    exec (.rxbyte b none) s = .next ((s.acceptByte b).1.withOutputs Outputs.zero) := by
  rw [exec_rxbyte, h]
  rfl

/-- Settles O24: the first four bytes are silent from every state (`acceptFrame_silent`), and the
records of the steps between change nothing (`exec_withOutputs`). -/
theorem receivedFrameIsFiveRxbytes : Obligations.ReceivedFrameIsFiveRxbytes := by
  intro i idx w p ck s hi
  obtain ⟨h1, h2, h3, h4⟩ :=
    acceptFrame_silent s (flagsOf idx w) (p.extractLsb' 8 8) (p.extractLsb' 0 8)
  have hexec := exec_of_receivedFields hi s
  rw [make_eq_frameOf] at hexec
  exact ⟨_, _, _, _, _, exec_rxbyte_silent h1,
    (exec_withOutputs _ _ _).trans (exec_rxbyte_silent h2),
    (exec_withOutputs _ _ _).trans (exec_rxbyte_silent h3),
    (exec_withOutputs _ _ _).trans (exec_rxbyte_silent h4),
    exec_withOutputs _ _ _, hexec, rfl, rfl, rfl, rfl⟩

/-- Settles O19: `RXBYTE` does not read the record the `ENCODE` left (`exec_withOutputs`), and the
outputs of the one are fields that the other does not write. -/
theorem rxbyteAndEncodeCommute : Obligations.RxbyteAndEncodeCommute := by
  intro s b e
  have her : exec (.rxbyte b none) (s.transmit e) = exec (.rxbyte b none) s :=
    exec_withOutputs _ s _
  refine ⟨_, _, _, _, _, exec_rxbyte b (some e) s, exec_rxbyte b none s, exec_encode _ _ _ _,
    exec_encode _ _ _ s, her.trans (exec_rxbyte b none s), ⟨rfl, rfl⟩, ⟨rfl, rfl⟩,
    ⟨?_, ?_, ?_, ?_, ?_⟩, rfl, ⟨rfl, rfl⟩, rfl⟩ <;>
  simp

/-! ### The step -/

/-- Settles O38: each of the few things an instruction can do has a next state (`exec_total`). -/
theorem noInstructionStops : Obligations.NoInstructionStops := exec_total

/-- Settles O39: `step_ok` runs the instruction, which has a next state (`exec_total`) and leaves
the rest pending (`exec_pending`). -/
theorem stepRunsTheDecodedInstruction : Obligations.StepRunsTheDecodedInstruction := by
  intro s x rest i hpending hdecode
  obtain ⟨t, ht⟩ := exec_total i { s with pending := rest }
  have hstep := step_ok hpending hdecode
  exact ⟨hstep, t, hstep.trans ht, exec_pending ht⟩

/-- Settles O40: the two cases of a step that runs no decoded instruction (`step_nil`,
`step_error`). -/
theorem stepIdlesOrRefusesByName : Obligations.StepIdlesOrRefusesByName :=
  ⟨fun _ => step_nil, fun _ _ _ _ => step_error⟩

/-- A table word stands for what its stimulus decodes to. -/
theorem decodeTableWord_eq_some_iff (nbits w : Nat) (i : Instr) :
    decodeTableWord nbits w = some i ↔ decode (stimulusOfTableWord nbits w) = .ok i := by
  unfold decodeTableWord
  split <;> simp [*]

/-- Settles O41: the presented word is the first pending stimulus, and taking it away gives the
state back. -/
theorem fetchedWordRunsNext : Obligations.FetchedWordRunsNext := fun s nbits w i h =>
  step_ok (State.withFetchWord_pending s nbits w) ((decodeTableWord_eq_some_iff nbits w i).mp h)

/-! ### Whole frames in a stream -/

/-- Four bytes after the first of a frame complete it, if none is the marker (R92, R94, R95). -/
theorem feed_tail (s : State) (f : Frame) (hcnt : s.cnt = 1) (hf : f.TailFree) :
    s.feed [f.flags, f.ph, f.pl, f.csum] = (s.clearFramer, [{ f with start := s.buf.start }]) := by
  obtain ⟨h1, h2, h3, h4⟩ := hf
  rw [feed_cons, acceptByte_store s h1 (by simp [hcnt]), hcnt]
  rw [feed_cons, acceptByte_store _ h2 (by decide : (2 : Fin 5).val < 4)]
  rw [feed_cons, acceptByte_store _ h3 (by decide : (3 : Fin 5).val < 4)]
  rw [feed_cons, acceptByte_complete _ h4 rfl]
  rfl

/-- A frame whose first byte is stored at position 0 is delivered and the framer cleared. -/
theorem feed_bytes_of_first {s : State} {f : Frame} (hf : f.TailFree)
    (h : s.acceptByte f.start =
      ({ s with buf := { s.buf with start := f.start }, cnt := 1 }, none)) :
    s.feed [f.start, f.flags, f.ph, f.pl, f.csum] = (s.clearFramer, [f]) := by
  rw [feed_cons, h, feed_tail _ f rfl hf]
  rfl

theorem cleared_clearFramer (s : State) : s.clearFramer.Cleared := ⟨rfl, rfl⟩

/-- Settles O26: whatever the bytes before it left, the marker is stored at position 0
(`acceptByte_marker`), and the frame it begins is delivered (`feed_bytes_of_first`). -/
theorem resynchronisationFromAnyState : Obligations.ResynchronisationFromAnyState := by
  intro s bs f hstart hf
  rw [feed_append, feed_bytes_of_first hf (by rw [hstart]; exact acceptByte_marker _)]
  exact ⟨rfl, cleared_clearFramer _⟩

/-- Settles O28: in seeking-start the first byte is stored at position 0 though it is not the
marker, and the frame it begins is delivered (`feed_bytes_of_first`). -/
theorem fiveNonMarkerBytesAreDeliveredInvalid :
    Obligations.FiveNonMarkerBytesAreDeliveredInvalid := by
  intro s f hs hstart hf
  have hfirst : s.acceptByte f.start
      = ({ s with buf := { s.buf with start := f.start }, cnt := 1 }, none) := by
    have hcnt : s.cnt = 0 := hs
    rw [acceptByte_store s hstart (by simp [hcnt]), hcnt]
    rfl
  rw [feed_bytes_of_first hf hfirst, decodeFrame_eq_decodeResult,
    decodeResult_valid_of_failed_check (.inl hstart), ← decodeFrame_eq_decodeResult,
    decodeFrame_err_bit_zero, startWrong_eq]
  exact ⟨rfl, cleared_clearFramer s, rfl, decide_eq_true hstart⟩

/-! ### Bytes without a marker -/

/-- An unsynced framer stays so under a byte that is not the marker, and any frame it completes
begins with another byte. -/
theorem acceptByte_of_not_synced {s : State} {b : Byte} (hs : ¬ s.Synced) (hb : b ≠ 0x3A#8) :
    ¬ (s.acceptByte b).1.Synced ∧ ∀ f, (s.acceptByte b).2 = some f → f.start ≠ 0x3A#8 := by
  obtain ⟨hm, -⟩ | ⟨-, hlt, h⟩ | ⟨-, hc, h⟩ := acceptByte_cases s b
  · exact absurd hm hb
  · rw [h]
    refine ⟨fun ⟨_, hstart⟩ => ?_, fun f hf => by cases hf⟩
    by_cases h0 : s.cnt = 0
    · have hstored : (s.buf.put s.cnt b).start = b := by rw [h0]; rfl
      exact hb (hstored.symm.trans hstart)
    · have hkept := Frame.get_put_other s.buf b (Ne.symm h0)
      exact hs ⟨Nat.pos_of_ne_zero (Fin.val_ne_zero_iff.mpr h0), hkept.symm.trans hstart⟩
  · rw [h]
    refine ⟨fun ⟨hpos, _⟩ => absurd hpos (by simp), fun f hf hstart => ?_⟩
    cases hf
    exact hs ⟨by simp [hc], hstart⟩

/-- A stream without a marker delivers frames that begin with another byte. -/
theorem feed_start_of_not_synced {bs : List Byte} (hbs : ∀ b ∈ bs, b ≠ 0x3A#8) {s : State}
    (hs : ¬ s.Synced) : ∀ f ∈ (s.feed bs).2, f.start ≠ 0x3A#8 := by
  induction bs generalizing s with
  | nil => simp
  | cons b bs ih =>
    obtain ⟨hb, hbs⟩ := List.forall_mem_cons.mp hbs
    obtain ⟨hnext, hdel⟩ := acceptByte_of_not_synced hs hb
    intro f hf
    rw [feed_cons, List.mem_append, Option.mem_toList] at hf
    exact hf.elim (hdel f) (ih hbs hnext f)

/-- Settles O27: without a marker no candidate frame begins with one, so no candidate is valid
(`feed_start_of_not_synced`); the frame after it is delivered (`resynchronisationFromAnyState`). -/
theorem garbagePrefixYieldsExactlyOneValidFrame :
    Obligations.GarbagePrefixYieldsExactlyOneValidFrame := by
  intro s bs f hs hbs hf hvalid
  have hsynced : ¬ s.Synced := fun ⟨hpos, _⟩ => by
    rw [show s.cnt = 0 from hs] at hpos
    exact absurd hpos (by decide)
  have hgarbage : (s.feed bs).2.filter (fun g => (decodeFrame g).valid) = [] := by
    refine List.filter_eq_nil_iff.mpr fun g hg hv => ?_
    exact feed_start_of_not_synced hbs hsynced g hg ((decodeFrame_valid_iff g).mp hv).1
  have hdel := (resynchronisationFromAnyState s bs f ((decodeFrame_valid_iff f).mp hvalid).1 hf).1
  rw [hdel, List.filter_append, hgarbage, List.nil_append, List.filter_singleton, hvalid]
  rfl

/-! ### Pending bytes (log 1) -/

/-- What a byte does depends on `buf` and `cnt` alone. -/
theorem acceptByte_congr {s u : State} (hbuf : s.buf = u.buf) (hcnt : s.cnt = u.cnt) (b : Byte) :
    (s.acceptByte b).1.buf = (u.acceptByte b).1.buf ∧
      (s.acceptByte b).1.cnt = (u.acceptByte b).1.cnt ∧
      (s.acceptByte b).2 = (u.acceptByte b).2 := by
  have hs : s = { u with pending := s.pending, out := s.out, ret := s.ret } := by
    rw [← hbuf, ← hcnt]
  rw [hs, acceptByte_withHeld]
  exact ⟨rfl, rfl, rfl⟩

/-- Where a stream leads depends on `buf` and `cnt` alone. -/
theorem feed_congr {s u : State} (hbuf : s.buf = u.buf) (hcnt : s.cnt = u.cnt) (bs : List Byte) :
    (s.feed bs).1.buf = (u.feed bs).1.buf ∧ (s.feed bs).1.cnt = (u.feed bs).1.cnt := by
  induction bs generalizing s u with
  | nil => exact ⟨hbuf, hcnt⟩
  | cons b bs ih =>
    obtain ⟨hbuf', hcnt', -⟩ := acceptByte_congr hbuf hcnt b
    exact ih hbuf' hcnt'

/-- The step of a pending `RXBYTE` event. -/
theorem step_rxStimulus {s : State} {b : Byte} {l : List Stimulus}
    (h : s.pending = rxStimulus b :: l) :
    ∃ t, step s = .next t ∧ t.buf = (s.acceptByte b).1.buf ∧ t.cnt = (s.acceptByte b).1.cnt ∧
      t.pending = l ∧ ShowsDelivery t.out (s.acceptByte b).2 ∧ TxZero t.out := by
  obtain ⟨hbuf, hcnt, hdel⟩ := acceptByte_congr (s := s) (u := { s with pending := l }) rfl rfl b
  obtain ⟨t, ht, htbuf, htcnt, hfrm, htx⟩ :=
    exec_rxbyte_of_acceptByte (s := { s with pending := l }) (b := b) rfl none
  exact ⟨t, (step_ok h rfl).trans ht, htbuf.trans hbuf.symm, htcnt.trans hcnt.symm,
    exec_pending ht, hdel ▸ hfrm, htx⟩

/-- As many steps as there are pending bytes lead where the stream leads (R40). -/
theorem run_pending_bytes (bs : List Byte) (rest : List Stimulus) (s : State)
    (h : s.pending = bs.map rxStimulus ++ rest) :
    ∃ t, Sys2Proof.core.run bs.length s = .next t ∧ t.buf = (s.feed bs).1.buf ∧
      t.cnt = (s.feed bs).1.cnt ∧ t.pending = rest := by
  induction bs generalizing s with
  | nil => exact ⟨s, rfl, rfl, rfl, h⟩
  | cons b bs ih =>
    obtain ⟨u, hu, hbuf, hcnt, hpending, -⟩ := step_rxStimulus h
    obtain ⟨t, ht, htbuf, htcnt, htpending⟩ := ih u hpending
    obtain ⟨hfbuf, hfcnt⟩ := feed_congr hbuf hcnt bs
    exact ⟨t, (run_succ_next (M := Sys2Proof.core) hu).trans ht, htbuf.trans hfbuf,
      htcnt.trans hfcnt, htpending⟩

/-- One step more at the end of a run. -/
theorem run_succ_of_run {M : Host.Core} {k : Nat} {s u t : M.State} (hrun : M.run k s = .next u)
    (hstep : M.step u = .next t) : M.run (k + 1) s = .next t := by
  induction k generalizing s with
  | zero =>
    cases hrun
    exact run_succ_next hstep
  | succ k ih =>
    cases hs : M.step s with
    | next s' =>
      rw [run_succ_next hs] at hrun ⊢
      exact ih hrun
    | fault r => simp [Host.Core.run, hs] at hrun
    | refused r => simp [Host.Core.run, hs] at hrun

/-- Settles O29: the steps before byte `k` lead where the stream of those bytes leads
(`run_pending_bytes`), and the step of byte `k` shows what it delivers (`step_rxStimulus`). -/
theorem pendingBytesRunAsTheStream : Obligations.PendingBytesRunAsTheStream := by
  intro bs rest s h
  refine ⟨run_pending_bytes bs rest s h, fun k hk => ?_⟩
  have hsplit : s.pending = (bs.take k).map rxStimulus ++
      (rxStimulus bs[k] :: ((bs.drop (k + 1)).map rxStimulus ++ rest)) := by
    rw [h, ← List.cons_append, ← List.map_cons, List.getElem_cons_drop, ← List.append_assoc,
      ← List.map_append, List.take_append_drop]
  obtain ⟨u, hrun, hbuf, hcnt, hpending⟩ := run_pending_bytes _ _ s hsplit
  rw [List.length_take_of_le hk.le] at hrun
  obtain ⟨t, hstep, -, -, -, hfrm, htx⟩ := step_rxStimulus hpending
  obtain ⟨-, -, hdel⟩ := acceptByte_congr hbuf hcnt bs[k]
  refine ⟨u, t, hrun, hstep, run_succ_of_run hrun hstep, hfrm, htx, ?_⟩
  rw [List.take_succ_eq_append_getElem hk, feed_append, hdel]
  simp

end Sys2Proof.Machine
